-- ==== Sys2Proof/Word.lean ====
section
/-! DEFINITION. The widths of R15: a nibble is 4 bits, a byte 8, a controller word 10 (R76). -/

namespace Sys2Proof

/-- A byte (R15). -/
abbrev Byte := BitVec 8

/-- A nibble: what one EN strobe carries (R15, R19). -/
abbrev Nibble := BitVec 4

/-- A controller word `RS : RW : DB[7:0]` (R76). -/
abbrev Word10 := BitVec 10

/-- A lone nibble word `RS : RW : DB[7:4]` (R77). -/
abbrev Word6 := BitVec 6

end Sys2Proof
end

