-- ==== Sys2Proof/Syntax.lean ====
section
/-! DEFINITION. The rows of spec/opcode_table.json: 14 requests (R72, R73), the 5 reserved ranges of request codes (R74),
the 11 controller words (R76, R78, R82) and the lone nibble (R77). A request reaches the block on the request port (R71);
a controller word or the lone nibble is what the block itself sends while it runs a request. -/

namespace Sys2Proof

/-- One constructor per row of the opcode table. -/
inductive Instr where
  /-- INIT 0x00 (R160) -/
  | init
  /-- SEND_CMD 0x01 (R109) -/
  | sendCmd (op : Byte)
  /-- SEND_DATA 0x02 (R110) -/
  | sendData (b : Byte)
  /-- WRITE_STRING 0x03 (R185) -/
  | writeString (s : List Byte)
  /-- GOTO 0x04 (R182) -/
  | goto (row col : Byte)
  /-- DEF_CHAR 0x05 (R183) -/
  | defChar (index : Byte) (pattern : List Byte)
  /-- CLEAR 0x06 (R111) -/
  | clear
  /-- HOME 0x07 (R112) -/
  | home
  /-- SET_DISPLAY 0x08 (R135) -/
  | setDisplay (on : Bool)
  /-- SET_CURSOR 0x09 (R136) -/
  | setCursor (on : Bool)
  /-- SET_BLINK 0x0A (R137) -/
  | setBlink (on : Bool)
  /-- SET_BACKLIGHT 0x0B (R139) -/
  | setBacklight (on : Bool)
  /-- SET_ENTRY_MODE 0x0C (R138) -/
  | setEntryMode (inc shift : Bool)
  /-- SET_FLAG 0x0D (R134) -/
  | setFlag (cls bits : Byte) (en : Bool)
  /-- request code 0x0E or 0x0F (R74) -/
  | reserved0E0F (code : Byte)
  /-- request code 0x10 to 0x1F (R74) -/
  | reserved101F (code : Byte)
  /-- request code 0x20 to 0x3F (R74) -/
  | reserved203F (code : Byte)
  /-- request code 0x40 to 0x7F (R74) -/
  | reserved407F (code : Byte)
  /-- request code 0x80 to 0xFF (R74) -/
  | reserved80FF (code : Byte)
  /-- controller word `00 0000 0001` (R78) -/
  | hdClear
  /-- controller word `00 0000 001x` (R78) -/
  | hdHome (x : Bool)
  /-- controller word `00 0000 01IS` (R78) -/
  | hdEntryMode (i s : Bool)
  /-- controller word `00 0000 1DCB` (R78) -/
  | hdDisplayControl (d c b : Bool)
  /-- controller word `00 0001 PRxx` (R78) -/
  | hdShift (p r : Bool) (x : BitVec 2)
  /-- controller word `00 001L NFxx` (R78) -/
  | hdFunctionSet (l n f : Bool) (x : BitVec 2)
  /-- controller word `00 01aa aaaa` (R78) -/
  | hdSetCgram (a : BitVec 6)
  /-- controller word `00 1aaa aaaa` (R78) -/
  | hdSetDdram (a : BitVec 7)
  /-- controller word `10 dddd dddd` (R76, R108) -/
  | hdWriteData (d : Byte)
  /-- controller word `01 xxxx xxxx`, never emitted (R82) -/
  | hdReadBfAddr (x : Byte)
  /-- controller word `11 xxxx xxxx`, never emitted (R82) -/
  | hdReadData (x : Byte)
  /-- the 6-bit word `00 0010` of initialization step 3 (R77) -/
  | loneNibble
  deriving DecidableEq, Repr

/-- The three formats of the table: a request, a controller word (R76) and a lone nibble word (R77). A request is the
frame of its code byte and its operand bytes, delivered whole (R66, R71); the byte layout of the frame is the model's own
(DESIGN CHOICE, log 1). -/
inductive Frame where
  | request (bytes : List Byte)
  | word (w : Word10)
  | nibble (w : Word6)
  deriving DecidableEq, Repr

/-- Why bits are no instruction. -/
inductive DecodeError where
  /-- a request frame without even a code byte -/
  | emptyFrame
  /-- a request frame whose operand bytes are not as many as the code's operands (R73) -/
  | operandCount (code : Byte)
  /-- a bit operand whose byte is neither 0 nor 1: "a value outside the type cannot be presented" (R73) -/
  | bitOperand (code : Byte)
  /-- the controller word 0x000, which is in no row of R78 -/
  | noSuchWord
  /-- a lone nibble word other than `00 0010`, the only one there is (R77) -/
  | noSuchNibble
  deriving DecidableEq, Repr

end Sys2Proof
end

