-- ==== Sys2Proof/Decode.lean ====
section
/-! DEFINITION. The decoder and the encoder of the three formats (R71 to R78), both written from the encoding tables, and
`decodeTableWord`, the decoder on the bits of an opcode-table row. The block decodes nothing it emits (R70): words and
nibbles are decoded here only to say which row of the table they are. -/

namespace Sys2Proof

/-- A bit operand in its frame byte: 0 or 1 (R73, R75; log 1). -/
def bitByte (b : Bool) : Byte := if b then 1#8 else 0#8

/-- The bit a frame byte stands for; none for a byte that is neither 0 nor 1 (R73). -/
def byteBit (b : Byte) : Option Bool :=
  if b = 0#8 then some false else if b = 1#8 then some true else none

/-- A request with one bit operand. -/
def decodeOn (code : Byte) (mk : Bool → Instr) : List Byte → Except DecodeError Instr
  | [b] => match byteBit b with
    | some on => .ok (mk on)
    | none => .error (.bitOperand code)
  | _ => .error (.operandCount code)

/-- A request with no operand. -/
def decodeBare (code : Byte) (i : Instr) : List Byte → Except DecodeError Instr
  | [] => .ok i
  | _ => .error (.operandCount code)

/-- A reserved request code (R74), in the row of the table it belongs to. -/
def decodeReserved (code : Byte) : Instr :=
  if code.toNat < 0x10 then .reserved0E0F code
  else if code.toNat < 0x20 then .reserved101F code
  else if code.toNat < 0x40 then .reserved203F code
  else if code.toNat < 0x80 then .reserved407F code
  else .reserved80FF code

/-- A request frame: the code of R72, then the operands of R73. A reserved code selects no request and so no operands:
whatever follows it is ignored. -/
def decodeRequest : List Byte → Except DecodeError Instr
  | [] => .error .emptyFrame
  | code :: ops =>
    match code.toNat with
    | 0x00 => decodeBare code .init ops
    | 0x01 => match ops with
      | [op] => .ok (.sendCmd op)
      | _ => .error (.operandCount code)
    | 0x02 => match ops with
      | [b] => .ok (.sendData b)
      | _ => .error (.operandCount code)
    | 0x03 => .ok (.writeString ops)
    | 0x04 => match ops with
      | [row, col] => .ok (.goto row col)
      | _ => .error (.operandCount code)
    | 0x05 => match ops with
      | index :: pattern => .ok (.defChar index pattern)
      | _ => .error (.operandCount code)
    | 0x06 => decodeBare code .clear ops
    | 0x07 => decodeBare code .home ops
    | 0x08 => decodeOn code .setDisplay ops
    | 0x09 => decodeOn code .setCursor ops
    | 0x0A => decodeOn code .setBlink ops
    | 0x0B => decodeOn code .setBacklight ops
    | 0x0C => match ops with
      | [i, s] => match byteBit i, byteBit s with
        | some inc, some shift => .ok (.setEntryMode inc shift)
        | _, _ => .error (.bitOperand code)
      | _ => .error (.operandCount code)
    | 0x0D => match ops with
      | [cls, bits, e] => match byteBit e with
        | some en => .ok (.setFlag cls bits en)
        | none => .error (.bitOperand code)
      | _ => .error (.operandCount code)
    | _ => .ok (decodeReserved code)

/-- A controller word (R76): RW = 1 is a read word (R82), RS = 1 a data write, else the row of R78 that the leading one of
the byte selects. The byte 0x00 has no leading one and no row of R78: its word is refused, although R84 calls every byte a valid
instruction (DESIGN CHOICE, log 25). -/
def decodeWord (w : Word10) : Except DecodeError Instr :=
  if w.getLsbD 9 then
    if w.getLsbD 8 then .ok (.hdReadData (w.setWidth 8)) else .ok (.hdWriteData (w.setWidth 8))
  else if w.getLsbD 8 then .ok (.hdReadBfAddr (w.setWidth 8))
  else if w.getLsbD 7 then .ok (.hdSetDdram (w.setWidth 7))
  else if w.getLsbD 6 then .ok (.hdSetCgram (w.setWidth 6))
  else if w.getLsbD 5 then
    .ok (.hdFunctionSet (w.getLsbD 4) (w.getLsbD 3) (w.getLsbD 2) (w.setWidth 2))
  else if w.getLsbD 4 then .ok (.hdShift (w.getLsbD 3) (w.getLsbD 2) (w.setWidth 2))
  else if w.getLsbD 3 then .ok (.hdDisplayControl (w.getLsbD 2) (w.getLsbD 1) (w.getLsbD 0))
  else if w.getLsbD 2 then .ok (.hdEntryMode (w.getLsbD 1) (w.getLsbD 0))
  else if w.getLsbD 1 then .ok (.hdHome (w.getLsbD 0))
  else if w.getLsbD 0 then .ok .hdClear
  else .error .noSuchWord

/-- The lone nibble word: exactly `00 0010` (R77). -/
def decodeNibble (w : Word6) : Except DecodeError Instr :=
  if w = 0b000010#6 then .ok .loneNibble else .error .noSuchNibble

/-- The instruction that bits in one of the three formats are, or why they are none. -/
def decode : Frame → Except DecodeError Instr
  | .request bytes => decodeRequest bytes
  | .word w => decodeWord w
  | .nibble w => decodeNibble w

/-- Bit `i` of a controller word's pattern, from a Boolean field. -/
def bitAt (i : Nat) (b : Bool) : Word10 := if b then BitVec.ofNat 10 (2 ^ i) else 0#10

/-- The bits of an instruction (R71 to R73, R76 to R78). -/
def encode : Instr → Frame
  | .init => .request [0x00#8]
  | .sendCmd op => .request [0x01#8, op]
  | .sendData b => .request [0x02#8, b]
  | .writeString s => .request (0x03#8 :: s)
  | .goto row col => .request [0x04#8, row, col]
  | .defChar index pattern => .request (0x05#8 :: index :: pattern)
  | .clear => .request [0x06#8]
  | .home => .request [0x07#8]
  | .setDisplay on => .request [0x08#8, bitByte on]
  | .setCursor on => .request [0x09#8, bitByte on]
  | .setBlink on => .request [0x0A#8, bitByte on]
  | .setBacklight on => .request [0x0B#8, bitByte on]
  | .setEntryMode inc shift => .request [0x0C#8, bitByte inc, bitByte shift]
  | .setFlag cls bits en => .request [0x0D#8, cls, bits, bitByte en]
  | .reserved0E0F code => .request [code]
  | .reserved101F code => .request [code]
  | .reserved203F code => .request [code]
  | .reserved407F code => .request [code]
  | .reserved80FF code => .request [code]
  | .hdClear => .word 0x001#10
  | .hdHome x => .word (0x002#10 ||| bitAt 0 x)
  | .hdEntryMode i s => .word (0x004#10 ||| bitAt 1 i ||| bitAt 0 s)
  | .hdDisplayControl d c b => .word (0x008#10 ||| bitAt 2 d ||| bitAt 1 c ||| bitAt 0 b)
  | .hdShift p r x => .word (0x010#10 ||| bitAt 3 p ||| bitAt 2 r ||| x.setWidth 10)
  | .hdFunctionSet l n f x =>
    .word (0x020#10 ||| bitAt 4 l ||| bitAt 3 n ||| bitAt 2 f ||| x.setWidth 10)
  | .hdSetCgram a => .word (0x040#10 ||| a.setWidth 10)
  | .hdSetDdram a => .word (0x080#10 ||| a.setWidth 10)
  | .hdWriteData d => .word (0x200#10 ||| d.setWidth 10)
  | .hdReadBfAddr x => .word (0x100#10 ||| x.setWidth 10)
  | .hdReadData x => .word (0x300#10 ||| x.setWidth 10)
  | .loneNibble => .nibble 0b000010#6

/-- The operand bytes of zeros that follow a request code of the table, which gives a request 8 bits (its code): as many
as R73 gives the code operands; an empty string, and a pattern of the legal length 8 (log 8). -/
def zeroOperands (code : Nat) : List Byte :=
  match code with
  | 0x01 => [0#8]
  | 0x02 => [0#8]
  | 0x04 => [0#8, 0#8]
  | 0x05 => [0#8, 0#8, 0#8, 0#8, 0#8, 0#8, 0#8, 0#8, 0#8]
  | 0x08 => [0#8]
  | 0x09 => [0#8]
  | 0x0A => [0#8]
  | 0x0B => [0#8]
  | 0x0C => [0#8, 0#8]
  | 0x0D => [0#8, 0#8, 0#8]
  | _ => []

/-- The frame of an opcode-table row of `nbits` bits, `w`: up to 6 bits a lone nibble word, up to 8 a request code, more a
controller word; none where `w` has a bit the format lacks. The table's LONE_NIBBLE, rounded up to 8 bits, is read as the
request code it then cannot be told from (log 8). -/
def tableFrame (nbits w : Nat) : Option Frame :=
  if nbits ≤ 6 then
    if w < 64 then some (.nibble (BitVec.ofNat 6 w)) else none
  else if nbits ≤ 8 then
    if w < 256 then some (.request (BitVec.ofNat 8 w :: zeroOperands w)) else none
  else if w < 1024 then some (.word (BitVec.ofNat 10 w)) else none

/-- What the decoder reads from the bits of an opcode-table row. -/
def decodeTableWord (nbits w : Nat) : Option Instr :=
  match tableFrame nbits w with
  | none => none
  | some f => match decode f with
    | .ok i => some i
    | .error _ => none

end Sys2Proof
end

