-- ==== Sys2Proof/Config.lean ====
section
/-! DEFINITION. The configuration record `Cfg` of R7 to R14 and R34: fixed when the block is built, read-only. It is a
field of State, so every statement over all states speaks of every configuration. Which ones are legal (R241) stands in
Machine/Legal.lean, the defaults in Machine/Defaults.lean. -/

namespace Sys2Proof

/-- The HD44780 constants of R78 and R79, a configuration table (R14). -/
structure HDTable where
  /-- `HD.CLEAR` -/
  clear : Byte
  /-- `HD.HOME` -/
  home : Byte
  /-- `HD.ENTRY_MODE` -/
  entryMode : Byte
  /-- `HD.DISPLAY_CONTROL` -/
  displayControl : Byte
  /-- `HD.SHIFT` -/
  shift : Byte
  /-- `HD.FUNCTION_SET` -/
  functionSet : Byte
  /-- `HD.SET_CGRAM` -/
  setCgram : Byte
  /-- `HD.SET_DDRAM` -/
  setDdram : Byte
  /-- `HD.EM_ID` -/
  emId : Byte
  /-- `HD.EM_S` -/
  emS : Byte
  /-- `HD.DC_D` -/
  dcD : Byte
  /-- `HD.DC_C` -/
  dcC : Byte
  /-- `HD.DC_B` -/
  dcB : Byte
  /-- `HD.SH_SC` -/
  shSc : Byte
  /-- `HD.SH_RL` -/
  shRl : Byte
  /-- `HD.FS_DL` -/
  fsDl : Byte
  /-- `HD.FS_N` -/
  fsN : Byte
  /-- `HD.FS_F` -/
  fsF : Byte
  deriving DecidableEq, Repr

/-- One call `FLAG(cls, bits, en)` of the initialization schedule (R170). -/
structure FlagCall where
  cls : Byte
  bits : Byte
  en : Bool
  deriving DecidableEq, Repr

/-- `INIT_SCHEDULE`: the flag calls of initialization steps 4, 6 and 7 (R12, R170). -/
structure Schedule where
  step4 : List FlagCall
  step6 : List FlagCall
  step7 : List FlagCall
  deriving DecidableEq, Repr

/-- The configuration record (R34), with the controller's wait bounds of R244. Times are in nanoseconds (R10). -/
structure Cfg where
  /-- `P_LINES` (R7) -/
  pLines : Nat
  /-- `P_COLS` (R7) -/
  pCols : Nat
  /-- `P_BACKLIGHT` (R8) -/
  pBacklight : Bool
  /-- `P_BL_ON_LEVEL` (R8) -/
  pBlOnLevel : Bool
  /-- `P_DATA_SHIFT` (R9) -/
  pDataShift : Nat
  /-- `P_DATA_MASK` (R9) -/
  pDataMask : Nat
  /-- `P_PORT_WIDTH` (R9) -/
  pPortWidth : Nat
  /-- `T_AS` (R10) -/
  tAs : Nat
  /-- `T_PULSE` (R10) -/
  tPulse : Nat
  /-- `T_EXEC` (R10) -/
  tExec : Nat
  /-- `T_LONG` (R10) -/
  tLong : Nat
  /-- `B_AS` (R244) -/
  bAs : Nat
  /-- `B_PULSE` (R244) -/
  bPulse : Nat
  /-- `B_EXEC` (R244) -/
  bExec : Nat
  /-- `B_LONG` (R244) -/
  bLong : Nat
  /-- `INIT_SCHEDULE` (R12) -/
  initSchedule : Schedule
  /-- `P_LONG_OPS` (R13) -/
  pLongOps : List Byte
  /-- `HD` (R14) -/
  hd : HDTable
  deriving DecidableEq, Repr

/-- `P_SHADOW_SLOTS` (R11, R34): 6 in every configuration, so a constant. -/
def Cfg.pShadowSlots (_ : Cfg) : Nat := 6

end Sys2Proof
end

