-- ==== Sys2Proof/Machine/Defaults.lean ====
section
/-! DEFINITION. The spec's default configuration values: the standard HD table (R78, R79), the default schedule (R170), the
default long operations (R13) and the configuration of the test vectors (92 D41), which State.reset is built with (log 6). -/

namespace Sys2Proof

/-- The standard HD44780 values of R78 and R79. -/
def HDTable.standard : HDTable where
  clear := 0x01#8
  home := 0x02#8
  entryMode := 0x04#8
  displayControl := 0x08#8
  shift := 0x10#8
  functionSet := 0x20#8
  setCgram := 0x40#8
  setDdram := 0x80#8
  emId := 0x02#8
  emS := 0x01#8
  dcD := 0x04#8
  dcC := 0x02#8
  dcB := 0x01#8
  shSc := 0x08#8
  shRl := 0x04#8
  fsDl := 0x10#8
  fsN := 0x08#8
  fsF := 0x04#8

/-- The default schedule of R170: one call per flag, in the order the source names the flags. -/
def Schedule.standard (hd : HDTable) : Schedule where
  step4 := [⟨hd.functionSet, hd.fsDl, false⟩, ⟨hd.functionSet, hd.fsF, false⟩,
    ⟨hd.functionSet, hd.fsN, true⟩]
  step6 := [⟨hd.displayControl, hd.dcD, true⟩, ⟨hd.displayControl, hd.dcC, false⟩,
    ⟨hd.displayControl, hd.dcB, false⟩]
  step7 := [⟨hd.entryMode, hd.emId, true⟩, ⟨hd.entryMode, hd.emS, false⟩]

/-- The configuration of the test vectors (92 D41). The waits are R254's worked figures and the bounds R244's defaults;
`B_AS`, for which the spec gives no default, is R254's assumed `T_AS` (DESIGN CHOICE, log 6). -/
def Cfg.standard : Cfg where
  pLines := 2
  pCols := 16
  pBacklight := false
  pBlOnLevel := true
  pDataShift := 4
  pDataMask := 0xF0
  pPortWidth := 8
  tAs := 50
  tPulse := 250
  tExec := 50000
  tLong := 1600000
  bAs := 50
  bPulse := 250
  bExec := 50000
  bLong := 1600000
  initSchedule := Schedule.standard HDTable.standard
  pLongOps := [0x01#8, 0x02#8, 0x03#8]
  hd := HDTable.standard

end Sys2Proof
end

