-- ==== Sys2Proof/Machine/State.lean ====
section
/-! DEFINITION. The state of the block (R20 to R39), as plain data, and the state after reset (R39, R240).
`none` in a shadow slot, a line register or a port bit is the spec's own ⊥: "the register holds no value: a model must not
pick one" (R39). It is the reset value the spec states, not the lack of one. -/

namespace Sys2Proof.Machine

/-- The lines a `DIR` event can name (R32). -/
inductive Line where
  | db4 | db5 | db6 | db7 | rs | rw | en | bl
  deriving DecidableEq, Repr

/-- The single lines a `SET` event drives (R31, R100). -/
inductive Ctl where
  | rs | rw | en | bl
  deriving DecidableEq, Repr

/-- The four kinds of wait (R10, R17). -/
inductive Wait where
  | as | pulse | exec | long
  deriving DecidableEq, Repr

/-- A bus event (R17, R100). -/
inductive Event where
  /-- `DIR(S)` -/
  | dir (lines : List Line)
  /-- `SET(RS,b)`, `SET(RW,b)`, `SET(EN,b)`, `SET(BL,b)` -/
  | set (line : Ctl) (b : Bool)
  /-- `DBUS(v)` -/
  | dbus (v : Nibble)
  /-- `WAIT(k)` -/
  | wait (k : Wait)
  deriving DecidableEq, Repr

/-- The six instruction classes, in slot order (R22, R23). -/
inductive InstrClass where
  | entryMode | displayControl | cursorDisplayShift | functionSet | setCgramAddr | setDdramAddr
  deriving DecidableEq, Repr

/-- SHADOW: six 8-bit registers, one per instruction class (R22, R23); `none` is ⊥ (R26, R39). -/
structure Shadow where
  entryMode : Option Byte
  displayControl : Option Byte
  cursorDisplayShift : Option Byte
  functionSet : Option Byte
  setCgramAddr : Option Byte
  setDdramAddr : Option Byte
  deriving DecidableEq, Repr

/-- FAULT, the sticky fault register (R30). -/
structure FaultReg where
  /-- `FAULT.V` -/
  v : Bool
  /-- `FAULT.CAUSE` -/
  cause : BitVec 4
  /-- `FAULT.REQ` -/
  req : Byte
  deriving DecidableEq, Repr

/-- What is left of a request being run: the model's own record of the sequencing R28 describes and of the operands
"held only while that request runs" (R21); log 2. `emit`, `word` and `lone` send events; the others are the register
writes of R131, R161 and R163, which emit none. -/
inductive Op where
  /-- one bus event (R17) -/
  | emit (e : Event)
  /-- one controller word: `CMD` for RS = 0, `DATA` for RS = 1 (R76, R106, R108) -/
  | word (w : Word10)
  /-- the lone nibble of step 3 with its line changes and waits (R164) -/
  | lone
  /-- `PHASE <- p` (R161) -/
  | phase (p : BitVec 4)
  /-- initialization step 2 (R163) -/
  | zeroShadow
  /-- `FLAG(cls, bits, en)` (R131) -/
  | flag (cls bits : Byte) (en : Bool)
  deriving DecidableEq, Repr

/-- A move of the host (R228, R240): an input of the machine, log 3. -/
inductive HostAct where
  /-- present a request and wait until it has completed: one step runs it whole (R18, R28 macro-step) -/
  | call (frame : List Byte)
  /-- present a request and do not wait: its events follow one a step (R28 micro-step) -/
  | present (frame : List Byte)
  /-- let one event of the request in flight pass -/
  | event
  /-- let one transfer (a whole controller word, R76, or the lone nibble) of the request in flight pass -/
  | transfer
  /-- drive a port bit outside `P_DATA_MASK` (R228) -/
  | portWrite (i : Nat) (b : Bool)
  /-- reset the platform; it may come at any time (R240) -/
  | reset
  deriving DecidableEq, Repr

/-- The state of the block. -/
structure State where
  /-- the configuration registers, read-only (R34) -/
  cfg : Cfg
  /-- SHADOW (R22) -/
  shadow : Shadow
  /-- PHASE (R27) -/
  phase : BitVec 4
  /-- SEQ.ACTIVE; `none` is NONE (R28) -/
  active : Option Byte
  /-- SEQ.POS (R28) -/
  pos : Nat
  /-- BUSY (R29) -/
  busy : Bool
  /-- FAULT (R30) -/
  fault : FaultReg
  /-- RS (R31) -/
  rs : Option Bool
  /-- RW (R31) -/
  rw : Option Bool
  /-- EN (R31) -/
  en : Option Bool
  /-- BL (R31) -/
  bl : Option Bool
  /-- DBUS (R31) -/
  dbus : Option Nibble
  /-- DIR (R32), as the list of its lines -/
  dir : List Line
  /-- PORT, GPIO's output word (R33), bit 0 first; a bit nobody is known to have driven is ⊥ (R39, log 5) -/
  port : List (Option Bool)
  /-- TRACE (R35) -/
  trace : List Event
  /-- what is left of the request in flight (R28; the model's own, log 2) -/
  todo : List Op
  /-- the moves the host will make (R228; the model's own, log 3) -/
  acts : List HostAct
  deriving DecidableEq, Repr

/-- Why the machine stops with a fault of the MODEL. A fault of the block (R210) is no such stop: it is a next state with
FAULT written (R213). -/
inductive Fault where
  /-- Raised by `tickEvent` and `tickTransfer` (a step in which a request in flight goes on) when BUSY = 1 and nothing of
  the request is left: no state of the block, since BUSY falls with the last event (R29). Safe: no state of a run from
  reset is one. -/
  | busyWithNothingInFlight
  deriving DecidableEq, Repr

/-- Why the machine refuses to go on. -/
inductive Refusal where
  /-- Raised by an arm of `exec` whose instruction has no meaning yet. Safe. -/
  | notModelled (mnemonic : String)
  /-- Raised by `step`, `runRequest`, `sendWord` and `sendLone`: the configuration breaks R241 ("refused: the block is not
  built and has no runs"). Safe. -/
  | illegalConfig
  /-- Raised by `step` when the host presents bytes that are no request: "a value outside the type cannot be presented"
  (R73). Safe. -/
  | notPresentable (why : DecodeError)
  /-- Raised by `sendWord` for a word with RW = 1: "The block never emits RW = 1" (R82). Safe. -/
  | neverEmitted
  /-- Raised by `runReserved` for an ill-formed term: a code below 0x0E in the constructor of a reserved range, which no
  bits decode to. Safe. -/
  | illFormed
  /-- Raised by `presentInstr` for a controller word or lone nibble, which the block sends and no host can present
  (R71, R70). Safe. -/
  | noRequest
  /-- Raised by `step` when the host writes a port bit of the data field: its duty is to "keep its own writes out of the
  data field" (R228). Safe. -/
  | hostDataFieldWrite
  /-- Raised by `step` when the host writes a port bit beyond `P_PORT_WIDTH`, which does not exist (R9). Safe. -/
  | noSuchPortBit
  deriving DecidableEq, Repr

/-- Every slot ⊥ (R39). -/
def Shadow.unwritten : Shadow := ⟨none, none, none, none, none, none⟩

/-- No fault recorded (R30, R39). -/
def FaultReg.clear : FaultReg := ⟨false, 0#4, 0#8⟩

/-- The block built with configuration `c`, right after reset (R39, R240): the host has not yet presented anything. -/
def State.resetWith (c : Cfg) : State where
  cfg := c
  shadow := Shadow.unwritten
  phase := 0#4
  active := none
  pos := 0
  busy := false
  fault := FaultReg.clear
  rs := none
  rw := none
  en := none
  bl := none
  dbus := none
  dir := []
  port := List.replicate c.pPortWidth none
  trace := []
  todo := []
  acts := []

/-- The machine right after reset (R39), built with the configuration of 92 D41 (DESIGN CHOICE, log 6). -/
def State.reset : State := State.resetWith Cfg.standard

end Sys2Proof.Machine
end

