-- ==== Sys2Proof/Machine/Operands.lean ====
section
/-! DEFINITION. What a request's operands become: controller words (R76), the command bytes the block builds (R81), the
AddressTranslator (R180), the operand checks (R181, R183), and the event lists of the bus procedures NIB, BYTE, CMD, DATA and
of step 3's lone nibble (R102 to R108, R164). -/

namespace Sys2Proof.Machine

/-- The fault causes of R211. -/
inductive Cause where
  | busy | badRequest | reinit | notReady | noBacklight | rowRange | colRange | charIndex
  | patternLen | badClass | badFlags | busWidth
  deriving DecidableEq, Repr

/-- The 4-bit cause code (R211). -/
def Cause.code : Cause → BitVec 4
  | .busy => 1#4
  | .badRequest => 2#4
  | .reinit => 3#4
  | .notReady => 4#4
  | .noBacklight => 5#4
  | .rowRange => 6#4
  | .colRange => 7#4
  | .charIndex => 8#4
  | .patternLen => 9#4
  | .badClass => 10#4
  | .badFlags => 11#4
  | .busWidth => 12#4

/-- The controller word of a command: RS = 0, RW = 0 (R76). -/
def cmdWord (op : Byte) : Word10 := op.setWidth 10

/-- The controller word of a data write: RS = 1, RW = 0 (R76). -/
def dataWord (b : Byte) : Word10 := 0x200#10 ||| b.setWidth 10

/-- RS of a controller word: bit 9 (R76). -/
def wordRs (w : Word10) : Bool := w.getLsbD 9

/-- RW of a controller word: bit 8 (R76). -/
def wordRw (w : Word10) : Bool := w.getLsbD 8

/-- DB[7:0] of a controller word (R76). -/
def wordDb (w : Word10) : Byte := w.setWidth 8

/-- `b[7:4]` (R104). -/
def hiNibble (b : Byte) : Nibble := (b >>> 4).setWidth 4

/-- `b[3:0]` (R104). -/
def loNibble (b : Byte) : Nibble := b.setWidth 4

/-- `NIB(v)` (R102). -/
def nibEvents (v : Nibble) : List Event :=
  [.dbus 0#4, .dbus v, .set .en true, .wait .pulse, .set .en false, .wait .pulse]

/-- `BYTE(b)`: high nibble first (R104, R54). -/
def byteEvents (b : Byte) : List Event := nibEvents (hiNibble b) ++ nibEvents (loNibble b)

/-- The wait a command ends with (R107): keyed to the byte. -/
def cmdWait (c : Cfg) (op : Byte) : Wait := if c.pLongOps.contains op then .long else .exec

/-- `CMD(op)` (R106). -/
def cmdEvents (c : Cfg) (op : Byte) : List Event :=
  [.set .rs false, .set .rw false, .wait .as] ++ byteEvents op ++ [.wait (cmdWait c op)]

/-- `DATA(b)`: never the long wait (R108). -/
def dataEvents (b : Byte) : List Event :=
  [.set .rs true, .set .rw false, .wait .as] ++ byteEvents b ++ [.wait .exec]

/-- A controller word as the block sends it (R76): `DATA` for RS = 1, `CMD` for RS = 0. RW is always driven 0 (R82):
`sendWord` refuses a word that has it 1. -/
def wordEvents (c : Cfg) (w : Word10) : List Event :=
  if wordRs w then dataEvents (wordDb w) else cmdEvents c (wordDb w)

/-- Initialization step 3: the lone nibble `0b0010`, through NIB and not BYTE (R164, 90 C1). -/
def loneEvents : List Event :=
  [.set .rs false, .set .rw false, .wait .as] ++ nibEvents 0b0010#4 ++ [.wait .exec]

/-- The lines step 1 configures as outputs (R162). -/
def outputLines (c : Cfg) : List Line :=
  [.db4, .db5, .db6, .db7, .rs, .rw, .en] ++ (if c.pBacklight then [.bl] else [])

/-- `toAddress(row, col)`, on naturals (R180). -/
def toAddress (row col : Nat) : Nat :=
  if row ≤ 2 then (row - 1) * 0x40 + (col - 1) else (row - 3) * 0x40 + 0x14 + (col - 1)

/-- GOTO's command byte (R81, R182). -/
def gotoByte (c : Cfg) (row col : Byte) : Byte :=
  c.hd.setDdram ||| BitVec.ofNat 8 (toAddress row.toNat col.toNat)

/-- DEF_CHAR's command byte (R81, R183). -/
def cgramByte (c : Cfg) (index : Byte) : Byte := c.hd.setCgram ||| index <<< 3

/-- The checks of GOTO's operands: the row first (R181, R212). -/
def checkPosition (c : Cfg) (row col : Byte) : Option Cause :=
  if row.toNat < 1 ∨ c.pLines < row.toNat then some .rowRange
  else if col.toNat < 1 ∨ c.pCols < col.toNat then some .colRange
  else none

/-- The checks of DEF_CHAR's operands: the index first (R183, R212). -/
def checkChar (index : Byte) (pattern : List Byte) : Option Cause :=
  if 7 < index.toNat then some .charIndex
  else if pattern.length ≠ 8 then some .patternLen
  else none

/-- The level of the backlight line for on and off (R139, R166). -/
def blLevel (c : Cfg) (on : Bool) : Bool := if on then c.pBlOnLevel else !c.pBlOnLevel

end Sys2Proof.Machine
end

