-- ==== Sys2Proof/Machine/Flags.lean ====
section
/-! DEFINITION. The shadow register file and its flags: slots and classes (R22, R23), the flag masks (R79), the toggle classes
(R130), the checks of SET_FLAG (R134) and the shadow's part of `FLAG` (R131). -/

namespace Sys2Proof.Machine

/-- `SHADOW[i]` read; `none` is ⊥ (R22, R26). -/
def Shadow.get (sh : Shadow) : InstrClass → Option Byte
  | .entryMode => sh.entryMode
  | .displayControl => sh.displayControl
  | .cursorDisplayShift => sh.cursorDisplayShift
  | .functionSet => sh.functionSet
  | .setCgramAddr => sh.setCgramAddr
  | .setDdramAddr => sh.setDdramAddr

/-- `SHADOW[i] <- v` (R22). -/
def Shadow.set (sh : Shadow) (v : Byte) : InstrClass → Shadow
  | .entryMode => { sh with entryMode := some v }
  | .displayControl => { sh with displayControl := some v }
  | .cursorDisplayShift => { sh with cursorDisplayShift := some v }
  | .functionSet => { sh with functionSet := some v }
  | .setCgramAddr => { sh with setCgramAddr := some v }
  | .setDdramAddr => { sh with setDdramAddr := some v }

/-- Every slot 0x00: what step 2 leaves (R163). -/
def Shadow.zeroed : Shadow := ⟨some 0#8, some 0#8, some 0#8, some 0#8, some 0#8, some 0#8⟩

/-- The slot's index 0 to 5 (R23). -/
def InstrClass.slot : InstrClass → Nat
  | .entryMode => 0
  | .displayControl => 1
  | .cursorDisplayShift => 2
  | .functionSet => 3
  | .setCgramAddr => 4
  | .setDdramAddr => 5

/-- The class's opcode (R23, R78). -/
def InstrClass.opcode (h : HDTable) : InstrClass → Byte
  | .entryMode => h.entryMode
  | .displayControl => h.displayControl
  | .cursorDisplayShift => h.shift
  | .functionSet => h.functionSet
  | .setCgramAddr => h.setCgram
  | .setDdramAddr => h.setDdram

/-- `slotOf(cls)` (R23): the class a byte is the opcode of; "undefined for any other byte". -/
def slotOf (h : HDTable) (cls : Byte) : Option InstrClass :=
  if cls = h.entryMode then some .entryMode
  else if cls = h.displayControl then some .displayControl
  else if cls = h.shift then some .cursorDisplayShift
  else if cls = h.functionSet then some .functionSet
  else if cls = h.setCgram then some .setCgramAddr
  else if cls = h.setDdram then some .setDdramAddr
  else none

/-- The flag mask of a class (R79); the two address classes have no flags (R130). -/
def InstrClass.mask (h : HDTable) : InstrClass → Byte
  | .entryMode => h.emId ||| h.emS
  | .displayControl => h.dcD ||| h.dcC ||| h.dcB
  | .cursorDisplayShift => h.shSc ||| h.shRl
  | .functionSet => h.fsDl ||| h.fsN ||| h.fsF
  | .setCgramAddr => 0#8
  | .setDdramAddr => 0#8

/-- `TOGGLE_CLASSES` (R130): the classes of slots 0 to 3. -/
def InstrClass.isToggle : InstrClass → Bool
  | .entryMode => true
  | .displayControl => true
  | .cursorDisplayShift => true
  | .functionSet => true
  | .setCgramAddr => false
  | .setDdramAddr => false

/-- The new slot value: set or clear the named flags (R131). -/
def toggled (v bits : Byte) (en : Bool) : Byte := if en then v ||| bits else v &&& ~~~bits

/-- The shadow's part of `FLAG(cls, bits, en)` (R131): the new shadow and the command byte `cls | SHADOW[i]`. A class byte
without a slot is E_BAD_CLASS (R23), a read of a ⊥ slot E_NOT_READY (R26); no caller reaches either. -/
def flagShadow (h : HDTable) (sh : Shadow) (cls bits : Byte) (en : Bool) : Except Cause (Shadow × Byte) :=
  match slotOf h cls with
  | none => .error .badClass
  | some i => match sh.get i with
    | none => .error .notReady
    | some v => .ok (sh.set (toggled v bits en) i, cls ||| toggled v bits en)

/-- The check that a slot FLAG is about to read is not ⊥ (R26, R39; log 4). -/
def checkWritten (sh : Shadow) (i : InstrClass) : Option Cause :=
  match sh.get i with
  | none => some .notReady
  | some _ => none

/-- The checks of SET_FLAG, in R134's order, and then the slot's (R26). -/
def checkFlag (c : Cfg) (sh : Shadow) (cls bits : Byte) (en : Bool) : Option Cause :=
  match slotOf c.hd cls with
  | none => some .badClass
  | some i =>
    if !i.isToggle then some .badClass
    else if bits &&& ~~~(i.mask c.hd) ≠ 0#8 then some .badFlags
    else if cls = c.hd.functionSet ∧ en = true ∧ bits &&& c.hd.fsDl ≠ 0#8 then some .busWidth
    else checkWritten sh i

end Sys2Proof.Machine
end

