-- ==== Sys2Proof/Machine/Legal.lean ====
section
/-! DEFINITION. Which configurations are legal: R241's complete list of refusal conditions (90 C10). -/

namespace Sys2Proof

/-- Exactly one bit set: what a flag is (R19: "one bit of an instruction class's operand field"). -/
def isFlagBit (b : Byte) : Bool := b != 0#8 && b &&& (b - 1#8) == 0#8

/-- Condition 1 (R7): the geometry. -/
def Cfg.legalGeometry (c : Cfg) : Bool :=
  1 ≤ c.pLines && c.pLines ≤ 4 && 1 ≤ c.pCols &&
    (if c.pLines ≤ 2 then decide (c.pCols ≤ 40) else decide (c.pCols ≤ 20))

/-- Condition 2 (R9): the data port. -/
def Cfg.legalPort (c : Cfg) : Bool :=
  c.pDataMask == 0xF <<< c.pDataShift && c.pDataShift + 4 ≤ c.pPortWidth

/-- Condition 3 (R10, R244): the waits. -/
def Cfg.legalWaits (c : Cfg) : Bool :=
  c.bAs ≤ c.tAs && c.bPulse ≤ c.tPulse && c.bExec ≤ c.tExec && c.bLong ≤ c.tLong && c.tExec < c.tLong

/-- One entry of a schedule step (R170, conditions 1 to 3): its class, bits that are not empty and lie in the step's
target flags, and `en` the target value of every one of them. -/
def FlagCall.legalFor (cls on off : Byte) (f : FlagCall) : Bool :=
  f.cls == cls && f.bits != 0#8 && f.bits &&& ~~~(on ||| off) == 0#8 &&
    (if f.en then f.bits &&& off == 0#8 else f.bits &&& on == 0#8)

/-- All flags some entry of a step names. -/
def flagsNamed : List FlagCall → Byte
  | [] => 0#8
  | f :: fs => f.bits ||| flagsNamed fs

/-- One step's list (R170, conditions 1 to 4): legal entries that between them name every target flag. -/
def legalStep (cls on off : Byte) (fs : List FlagCall) : Bool :=
  fs.all (FlagCall.legalFor cls on off) && (on ||| off) &&& ~~~(flagsNamed fs) == 0#8

/-- Condition 4 (R170): on are N, D and I/D; off are DL, F, C, B and S. -/
def Cfg.legalSchedule (c : Cfg) : Bool :=
  legalStep c.hd.functionSet c.hd.fsN (c.hd.fsDl ||| c.hd.fsF) c.initSchedule.step4 &&
    legalStep c.hd.displayControl c.hd.dcD (c.hd.dcC ||| c.hd.dcB) c.initSchedule.step6 &&
    legalStep c.hd.entryMode c.hd.emId c.hd.emS c.initSchedule.step7

/-- Condition 5 (R107): clear-display and return-home take the long wait. -/
def Cfg.legalLongOps (c : Cfg) : Bool :=
  c.pLongOps.contains c.hd.clear && c.pLongOps.contains c.hd.home

/-- The flags of one class: one bit each, different, all below the class's opcode bit. -/
def legalFlags (cls : Byte) (flags : List Byte) : Bool :=
  flags.all (fun f => isFlagBit f && f.toNat < cls.toNat) && decide flags.Nodup

/-- Condition 6 (R78 to R80): each class opcode is `1 << (slot + 2)` and each class's flags lie below it. That a flag is
one bit (R19) and that a class's flags differ is DEDUCED (log 7). That R78's operand fields and the don't-care bits of R84
(bits 1..0 of SHIFT and FUNCTION_SET, bit 0 of HOME) are no part of the condition is a DESIGN CHOICE (log 24). -/
def HDTable.legal (h : HDTable) : Bool :=
  h.entryMode == 1#8 <<< 2 && h.displayControl == 1#8 <<< 3 && h.shift == 1#8 <<< 4 &&
    h.functionSet == 1#8 <<< 5 && h.setCgram == 1#8 <<< 6 && h.setDdram == 1#8 <<< 7 &&
    legalFlags h.entryMode [h.emId, h.emS] && legalFlags h.displayControl [h.dcD, h.dcC, h.dcB] &&
    legalFlags h.shift [h.shSc, h.shRl] && legalFlags h.functionSet [h.fsDl, h.fsN, h.fsF]

/-- A legal configuration (R241). -/
def Cfg.legal (c : Cfg) : Bool :=
  c.legalGeometry && c.legalPort && c.legalWaits && c.legalSchedule && c.legalLongOps && c.hd.legal

end Sys2Proof
end

