-- ==== Sys2Proof/Machine/Ops.lean ====
section
/-! DEFINITION. The named operations on the state: `emit` (R17, R100), `raise Fault` (R213), the acceptance checks (R212), the
beginning and the end of a request (R28, R29), running what is left of one, and the three ways a step meets them: a whole request
(`runRequest`), a request started (`startRequest`) and one event or one transfer of it (`tickEvent`, `tickTransfer`).
There is no trap entry beside `raise` and no return from a fault (R218, R219): a fault writes FAULT, and only reset clears it. -/

namespace Sys2Proof.Machine

/-- The outcomes of this machine. -/
abbrev Result := Host.Outcome State Fault Refusal

/-! Bus events -/

/-- `DBUS(v)` at the port: bit `P_DATA_SHIFT + i` takes `v[i]`; every bit outside `P_DATA_MASK` stays (R33). -/
def drivePort (c : Cfg) (v : Nibble) (port : List (Option Bool)) : List (Option Bool) :=
  port.mapIdx fun i b => if c.pDataMask.testBit i then some (v.getLsbD (i - c.pDataShift)) else b

/-- The effect of an event on the lines (R100). -/
def State.drive (s : State) : Event → State
  | .dir lines => { s with dir := lines }
  | .set .rs b => { s with rs := some b }
  | .set .rw b => { s with rw := some b }
  | .set .en b => { s with en := some b }
  | .set .bl b => { s with bl := some b }
  | .dbus v => { s with dbus := some v, port := drivePort s.cfg v s.port }
  | .wait _ => s

/-- `emit(e)` (R17, R100): TRACE, SEQ.POS, then the lines. -/
def State.emit (s : State) (e : Event) : State :=
  { s with trace := s.trace ++ [e], pos := s.pos + 1 }.drive e

/-- Events one after another (R62). -/
def State.emitAll (s : State) : List Event → State
  | [] => s
  | e :: es => (s.emit e).emitAll es

/-! Faults -/

/-- `raise Fault(cause)` (R213): the first cause and the request's code; nothing else changes, and a second fault records
nothing. -/
def State.raise (s : State) (cause : Cause) (code : Byte) : State :=
  if s.fault.v then s else { s with fault := ⟨true, cause.code, code⟩ }

/-! Acceptance -/

/-- What a request's rule gives: its code, the checks of its own operands (R212) and its body, as the events and register
writes its pseudocode lists, in order. -/
structure Req where
  code : Byte
  own : State → Option Cause
  body : Cfg → List Op

/-- What the acceptance checks say (R212). -/
inductive Verdict where
  | ignored
  | fault (cause : Cause)
  | accepted
  deriving DecidableEq, Repr

/-- The phase check (R212): INIT needs PowerOn, every other request Ready (R160, R173). -/
def checkPhase (code : Byte) (phase : BitVec 4) : Option Cause :=
  if code = 0x00#8 then
    if phase ≠ 0#4 then some .reinit else none
  else if phase ≠ 9#4 then some .notReady
  else none

/-- `ACCEPT` up to the body (R212): the first check that fails decides. -/
def accept (r : Req) (s : State) : Verdict :=
  if s.fault.v then .ignored
  else if s.busy then .fault .busy
  else if 0x0D < r.code.toNat then .fault .badRequest
  else match checkPhase r.code s.phase with
    | some cause => .fault cause
    | none => match r.own s with
      | some cause => .fault cause
      | none => .accepted

/-! A request's life -/

/-- `BUSY <- 1; SEQ.ACTIVE <- req.code; SEQ.POS <- 0` (R212, R28). -/
def State.begin (s : State) (code : Byte) : State :=
  { s with busy := true, active := some code, pos := 0 }

/-- `BUSY <- 0; SEQ.ACTIVE <- NONE` (R212, R28). SEQ.POS keeps its count (DEDUCED, log 21). -/
def State.finish (s : State) : State :=
  { s with busy := false, active := none }

/-- FLAG's end on a slot or class it cannot use: the fault of R23 and R26, under the code of the request being run. -/
def State.flagFault (s : State) (cause : Cause) : State :=
  s.raise cause (s.active.getD 0#8)

/-- Run the rest of a request to its end, without another request's events between (R18). A FLAG that faults ends the
request (R213). -/
def runOps : List Op → State → State
  | [], s => s
  | .emit e :: r, s => runOps r (s.emit e)
  | .word w :: r, s => runOps r (s.emitAll (wordEvents s.cfg w))
  | .lone :: r, s => runOps r (s.emitAll loneEvents)
  | .phase p :: r, s => runOps r { s with phase := p }
  | .zeroShadow :: r, s => runOps r { s with shadow := Shadow.zeroed }
  | .flag cls bits en :: r, s =>
    match flagShadow s.cfg.hd s.shadow cls bits en with
    | .error cause => s.flagFault cause
    | .ok (sh, byte) =>
      let s' := { s with shadow := sh }
      runOps r (s'.emitAll (wordEvents s'.cfg (cmdWord byte)))

/-- A request presented and run whole (R212): one step of a macro-step model (R28). -/
def runRequest (r : Req) (s : State) : Result :=
  if !s.cfg.legal then .refused .illegalConfig
  else match accept r s with
    | .ignored => .next s
    | .fault cause => .next (s.raise cause r.code)
    | .accepted => .next (runOps (r.body s.cfg) (s.begin r.code)).finish

/-- A request with a reserved code (R74): it has no body, so a code below 0x0E is no term of a reserved range. -/
def runReserved (code : Byte) (s : State) : Result :=
  if code.toNat ≤ 0x0D then .refused .illFormed
  else runRequest ⟨code, fun _ => none, fun _ => []⟩ s

/-- One controller word sent (R76): the events of CMD or DATA. A word with RW = 1 is never emitted (R82). -/
def sendWord (w : Word10) (s : State) : Result :=
  if wordRw w then .refused .neverEmitted
  else if !s.cfg.legal then .refused .illegalConfig
  else .next (s.emitAll (wordEvents s.cfg w))

/-- The lone nibble of step 3 sent (R164). -/
def sendLone (s : State) : Result :=
  if !s.cfg.legal then .refused .illegalConfig
  else .next (s.emitAll loneEvents)

/-! One event or one transfer at a time (R28) -/

/-- Do the register writes that stand before the next event: they emit nothing and so take no step (R131: "before any
event"; R161: "emit no event"). With nothing left the request is over (R28). -/
def settle : List Op → State → State
  | [], s => { s with todo := [] }.finish
  | .emit e :: r, s => { s with todo := .emit e :: r }
  | .word w :: r, s => { s with todo := .word w :: r }
  | .lone :: r, s => { s with todo := .lone :: r }
  | .phase p :: r, s => settle r { s with phase := p }
  | .zeroShadow :: r, s => settle r { s with shadow := Shadow.zeroed }
  | .flag cls bits en :: r, s =>
    match flagShadow s.cfg.hd s.shadow cls bits en with
    | .error cause => { (s.flagFault cause) with todo := [] }.finish
    | .ok (sh, byte) => { s with shadow := sh, todo := .word (cmdWord byte) :: r }

/-- A request presented and left in flight (R212, R28): BUSY is 1 until its last event is done (R29). -/
def startRequest (r : Req) (s : State) : Result :=
  if !s.cfg.legal then .refused .illegalConfig
  else match accept r s with
    | .ignored => .next s
    | .fault cause => .next (s.raise cause r.code)
    | .accepted => .next (settle (r.body s.cfg) (s.begin r.code))

/-- Emit the first of some events; the others, and then `r`, are still to do. -/
def emitFirst (es : List Event) (r : List Op) (s : State) : State :=
  match es with
  | [] => settle r s
  | e :: rest => settle (rest.map .emit ++ r) (s.emit e)

/-- The request in flight goes on by one event (R28). -/
def tickEvent (s : State) : Result :=
  match s.todo with
  | [] => .fault .busyWithNothingInFlight
  | .emit e :: r => .next (settle r (s.emit e))
  | .word w :: r =>
    if wordRw w then .refused .neverEmitted else .next (emitFirst (wordEvents s.cfg w) r s)
  | .lone :: r => .next (emitFirst loneEvents r s)
  | .phase p :: r => .next (settle (.phase p :: r) s)
  | .zeroShadow :: r => .next (settle (.zeroShadow :: r) s)
  | .flag cls bits en :: r => .next (settle (.flag cls bits en :: r) s)

/-- After a transfer: go on with what is left. -/
def andSettle (r : List Op) : Result → Result
  | .next s => .next (settle r s)
  | .fault f => .fault f
  | .refused x => .refused x

/-- The request in flight goes on by one transfer: a whole controller word or the lone nibble; where an event stands
alone, by that event. -/
def tickTransfer (s : State) : Result :=
  match s.todo with
  | [] => .fault .busyWithNothingInFlight
  | .emit e :: r => .next (settle r (s.emit e))
  | .word w :: r => andSettle r (sendWord w { s with todo := r })
  | .lone :: r => andSettle r (sendLone { s with todo := r })
  | .phase p :: r => .next (settle (.phase p :: r) s)
  | .zeroShadow :: r => .next (settle (.zeroShadow :: r) s)
  | .flag cls bits en :: r => .next (settle (.flag cls bits en :: r) s)

end Sys2Proof.Machine
end

