-- ==== Sys2Proof/Machine/Bus.lean ====
section
/-! DEFINITION. The requests over CMD and DATA: SEND_CMD, SEND_DATA, CLEAR, HOME (R109 to R112). -/

namespace Sys2Proof.Machine

/-- SEND_CMD (R109): any byte is sent, unchecked; SHADOW is not written. -/
def reqSendCmd (op : Byte) : Req where
  code := 0x01#8
  own _ := none
  body _ := [.word (cmdWord op)]

/-- SEND_CMD (R109). -/
def execSendCmd (op : Byte) (s : State) : Result := runRequest (reqSendCmd op) s

/-- SEND_DATA (R110). -/
def reqSendData (b : Byte) : Req where
  code := 0x02#8
  own _ := none
  body _ := [.word (dataWord b)]

/-- SEND_DATA (R110). -/
def execSendData (b : Byte) (s : State) : Result := runRequest (reqSendData b) s

/-- CLEAR (R111): `CMD(HD.CLEAR)`. -/
def reqClear : Req where
  code := 0x06#8
  own _ := none
  body c := [.word (cmdWord c.hd.clear)]

/-- CLEAR (R111). -/
def execClear (s : State) : Result := runRequest reqClear s

/-- HOME (R112): `CMD(HD.HOME)`. -/
def reqHome : Req where
  code := 0x07#8
  own _ := none
  body c := [.word (cmdWord c.hd.home)]

/-- HOME (R112). -/
def execHome (s : State) : Result := runRequest reqHome s

end Sys2Proof.Machine
end

