-- ==== Sys2Proof/Machine/Init.lean ====
section
/-! DEFINITION. INIT, steps 1 to 8 (R160 to R170). -/

namespace Sys2Proof.Machine

/-- The flag calls of a schedule step (R165, R167, R168). -/
def flagOps (calls : List FlagCall) : List Op := calls.map fun f => .flag f.cls f.bits f.en

/-- INIT's body (R161): each step, then its PHASE write. -/
def initBody (c : Cfg) : List Op :=
  [.emit (.dir (outputLines c)), .phase 1#4] ++            -- STEP1 (R162)
  [.zeroShadow, .phase 2#4] ++                             -- STEP2 (R163)
  [.lone, .phase 3#4] ++                                   -- STEP3 (R164)
  flagOps c.initSchedule.step4 ++ [.phase 4#4] ++          -- STEP4 (R165)
  (if c.pBacklight then [.emit (.set .bl (blLevel c true))] else []) ++  -- STEP5 (R166)
  flagOps c.initSchedule.step6 ++ [.phase 5#4] ++          -- STEP6 (R167)
  flagOps c.initSchedule.step7 ++ [.phase 6#4] ++          -- STEP7 (R168)
  [.word (cmdWord c.hd.clear), .phase 7#4] ++              -- STEP8a (R169)
  [.word (cmdWord c.hd.home), .phase 8#4] ++               -- STEP8b (R169)
  [.phase 9#4]                                             -- Ready

/-- INIT (R160). Its phase check is the acceptance's (R212). -/
def reqInit : Req where
  code := 0x00#8
  own _ := none
  body := initBody

/-- INIT (R160). -/
def execInit (s : State) : Result := runRequest reqInit s

end Sys2Proof.Machine
end

