-- ==== Sys2Proof/Machine/Reserved.lean ====
section
/-! DEFINITION. The reserved request codes 0x0E to 0xFF (R74): E_BAD_REQUEST, nothing emitted. -/

namespace Sys2Proof.Machine

/-- Codes 0x0E and 0x0F (R74). -/
def execReserved0E0F (code : Byte) (s : State) : Result := runReserved code s

/-- Codes 0x10 to 0x1F (R74). -/
def execReserved101F (code : Byte) (s : State) : Result := runReserved code s

/-- Codes 0x20 to 0x3F (R74). -/
def execReserved203F (code : Byte) (s : State) : Result := runReserved code s

/-- Codes 0x40 to 0x7F (R74). -/
def execReserved407F (code : Byte) (s : State) : Result := runReserved code s

/-- Codes 0x80 to 0xFF (R74). -/
def execReserved80FF (code : Byte) (s : State) : Result := runReserved code s

end Sys2Proof.Machine
end

