-- ==== Sys2Proof/Machine/Toggles.lean ====
section
/-! DEFINITION. The flag requests and the backlight (R134 to R139). -/

namespace Sys2Proof.Machine

/-- SET_FLAG (R134): E_BAD_CLASS, E_BAD_FLAGS, E_BUS_WIDTH, then FLAG. -/
def reqSetFlag (cls bits : Byte) (en : Bool) : Req where
  code := 0x0D#8
  own s := checkFlag s.cfg s.shadow cls bits en
  body _ := [.flag cls bits en]

/-- SET_FLAG (R134). -/
def execSetFlag (cls bits : Byte) (en : Bool) (s : State) : Result := runRequest (reqSetFlag cls bits en) s

/-- SET_DISPLAY (R135): `FLAG(HD.DISPLAY_CONTROL, HD.DC_D, on)`. -/
def reqSetDisplay (on : Bool) : Req where
  code := 0x08#8
  own s := checkWritten s.shadow .displayControl
  body c := [.flag c.hd.displayControl c.hd.dcD on]

/-- SET_DISPLAY (R135). -/
def execSetDisplay (on : Bool) (s : State) : Result := runRequest (reqSetDisplay on) s

/-- SET_CURSOR (R136): `FLAG(HD.DISPLAY_CONTROL, HD.DC_C, on)`. -/
def reqSetCursor (on : Bool) : Req where
  code := 0x09#8
  own s := checkWritten s.shadow .displayControl
  body c := [.flag c.hd.displayControl c.hd.dcC on]

/-- SET_CURSOR (R136). -/
def execSetCursor (on : Bool) (s : State) : Result := runRequest (reqSetCursor on) s

/-- SET_BLINK (R137): `FLAG(HD.DISPLAY_CONTROL, HD.DC_B, on)`. -/
def reqSetBlink (on : Bool) : Req where
  code := 0x0A#8
  own s := checkWritten s.shadow .displayControl
  body c := [.flag c.hd.displayControl c.hd.dcB on]

/-- SET_BLINK (R137). -/
def execSetBlink (on : Bool) (s : State) : Result := runRequest (reqSetBlink on) s

/-- SET_ENTRY_MODE (R138): the I/D flag, then the S flag; always two commands. -/
def reqSetEntryMode (inc shift : Bool) : Req where
  code := 0x0C#8
  own s := checkWritten s.shadow .entryMode
  body c := [.flag c.hd.entryMode c.hd.emId inc, .flag c.hd.entryMode c.hd.emS shift]

/-- SET_ENTRY_MODE (R138). -/
def execSetEntryMode (inc shift : Bool) (s : State) : Result := runRequest (reqSetEntryMode inc shift) s

/-- SET_BACKLIGHT (R139): one event on BL, no wait; E_NO_BACKLIGHT in a block without the line. -/
def reqSetBacklight (on : Bool) : Req where
  code := 0x0B#8
  own s := if s.cfg.pBacklight then none else some .noBacklight
  body c := [.emit (.set .bl (blLevel c on))]

/-- SET_BACKLIGHT (R139). -/
def execSetBacklight (on : Bool) (s : State) : Result := runRequest (reqSetBacklight on) s

end Sys2Proof.Machine
end

