-- ==== Sys2Proof/Machine/Words.lean ====
section
/-! DEFINITION. The output words: what the block does when it sends one (R76: two strobes, high nibble first, with CMD's or
DATA's line changes and waits), and the lone nibble (R77, R164). The procedures check nothing: "the requests that call CMD
make the checks" (R106). What the controller does with a word is not the block's (R6). -/

namespace Sys2Proof.Machine

/-- HD_CLEAR (R78): `CMD(0x01)`. -/
def execHdClear (s : State) : Result := sendWord 0x001#10 s

/-- HD_HOME (R78): `CMD(0000001x)`. -/
def execHdHome (x : Bool) (s : State) : Result :=
  sendWord (0x002#10 ||| (BitVec.ofBool x).setWidth 10) s

/-- HD_ENTRY_MODE (R78): `CMD(000001IS)`. -/
def execHdEntryMode (i sh : Bool) (s : State) : Result :=
  sendWord (0x004#10 ||| (BitVec.ofBool i ++ BitVec.ofBool sh).setWidth 10) s

/-- HD_DISPLAY_CONTROL (R78): `CMD(00001DCB)`. -/
def execHdDisplayControl (d c b : Bool) (s : State) : Result :=
  sendWord (0x008#10 ||| (BitVec.ofBool d ++ BitVec.ofBool c ++ BitVec.ofBool b).setWidth 10) s

/-- HD_SHIFT (R78): `CMD(0001PRxx)`. -/
def execHdShift (p r : Bool) (x : BitVec 2) (s : State) : Result :=
  sendWord (0x010#10 ||| (BitVec.ofBool p ++ BitVec.ofBool r ++ x).setWidth 10) s

/-- HD_FUNCTION_SET (R78): `CMD(001LNFxx)`. -/
def execHdFunctionSet (l n f : Bool) (x : BitVec 2) (s : State) : Result :=
  sendWord (0x020#10 ||| (BitVec.ofBool l ++ BitVec.ofBool n ++ BitVec.ofBool f ++ x).setWidth 10) s

/-- HD_SET_CGRAM (R78): `CMD(01aaaaaa)`. -/
def execHdSetCgram (a : BitVec 6) (s : State) : Result := sendWord (0x040#10 ||| a.setWidth 10) s

/-- HD_SET_DDRAM (R78): `CMD(1aaaaaaa)`. -/
def execHdSetDdram (a : BitVec 7) (s : State) : Result := sendWord (0x080#10 ||| a.setWidth 10) s

/-- HD_WRITE_DATA (R76, R108): `DATA(d)`. -/
def execHdWriteData (d : Byte) (s : State) : Result := sendWord (dataWord d) s

/-- HD_READ_BF_ADDR: RW = 1, never emitted (R82). -/
def execHdReadBfAddr (x : Byte) (s : State) : Result := sendWord (0x100#10 ||| x.setWidth 10) s

/-- HD_READ_DATA: RW = 1, never emitted (R82). -/
def execHdReadData (x : Byte) (s : State) : Result := sendWord (0x300#10 ||| x.setWidth 10) s

/-- LONE_NIBBLE (R77, R164): `SET(RS,0), SET(RW,0), WAIT(AS), NIB(0b0010), WAIT(EXEC)`. -/
def execLoneNibble (s : State) : Result := sendLone s

end Sys2Proof.Machine
end

