-- ==== Sys2Proof/Machine/Writers.lean ====
section
/-! DEFINITION. GOTO, DEF_CHAR and WRITE_STRING (R182, R183, R185). -/

namespace Sys2Proof.Machine

/-- GOTO (R182): row, then column, then one SET_DDRAM command. -/
def reqGoto (row col : Byte) : Req where
  code := 0x04#8
  own s := checkPosition s.cfg row col
  body c := [.word (cmdWord (gotoByte c row col))]

/-- GOTO (R182). -/
def execGoto (row col : Byte) (s : State) : Result := runRequest (reqGoto row col) s

/-- DEF_CHAR (R183): one SET_CGRAM command, then the pattern's bytes, unmodified, row 0 first. -/
def reqDefChar (index : Byte) (pattern : List Byte) : Req where
  code := 0x05#8
  own _ := checkChar index pattern
  body c := .word (cmdWord (cgramByte c index)) :: pattern.map fun b => .word (dataWord b)

/-- DEF_CHAR (R183). -/
def execDefChar (index : Byte) (pattern : List Byte) (s : State) : Result :=
  runRequest (reqDefChar index pattern) s

/-- WRITE_STRING (R185, R186): one data write per byte, in order; 0x00 is no terminator; no byte, no event. -/
def reqWriteString (str : List Byte) : Req where
  code := 0x03#8
  own _ := none
  body _ := str.map fun b => .word (dataWord b)

/-- WRITE_STRING (R185). -/
def execWriteString (str : List Byte) (s : State) : Result := runRequest (reqWriteString str) s

end Sys2Proof.Machine
end

