-- ==== Sys2Proof/Machine/Dispatch.lean ====
section
/-! DEFINITION. One arm per row of the opcode table: a request presented and run whole, or an output word sent. -/

namespace Sys2Proof.Machine

def exec (i : Instr) (s : State) : Host.Outcome State Fault Refusal :=
  match i with
  | .init => Sys2Proof.Machine.execInit s
  | .sendCmd op => Sys2Proof.Machine.execSendCmd op s
  | .sendData b => Sys2Proof.Machine.execSendData b s
  | .writeString str => Sys2Proof.Machine.execWriteString str s
  | .goto row col => Sys2Proof.Machine.execGoto row col s
  | .defChar index pattern => Sys2Proof.Machine.execDefChar index pattern s
  | .clear => Sys2Proof.Machine.execClear s
  | .home => Sys2Proof.Machine.execHome s
  | .setDisplay on => Sys2Proof.Machine.execSetDisplay on s
  | .setCursor on => Sys2Proof.Machine.execSetCursor on s
  | .setBlink on => Sys2Proof.Machine.execSetBlink on s
  | .setBacklight on => Sys2Proof.Machine.execSetBacklight on s
  | .setEntryMode inc shift => Sys2Proof.Machine.execSetEntryMode inc shift s
  | .setFlag cls bits en => Sys2Proof.Machine.execSetFlag cls bits en s
  | .reserved0E0F code => Sys2Proof.Machine.execReserved0E0F code s
  | .reserved101F code => Sys2Proof.Machine.execReserved101F code s
  | .reserved203F code => Sys2Proof.Machine.execReserved203F code s
  | .reserved407F code => Sys2Proof.Machine.execReserved407F code s
  | .reserved80FF code => Sys2Proof.Machine.execReserved80FF code s
  | .hdClear => Sys2Proof.Machine.execHdClear s
  | .hdHome x => Sys2Proof.Machine.execHdHome x s
  | .hdEntryMode ii sh => Sys2Proof.Machine.execHdEntryMode ii sh s
  | .hdDisplayControl d c b => Sys2Proof.Machine.execHdDisplayControl d c b s
  | .hdShift p r x => Sys2Proof.Machine.execHdShift p r x s
  | .hdFunctionSet l n f x => Sys2Proof.Machine.execHdFunctionSet l n f x s
  | .hdSetCgram a => Sys2Proof.Machine.execHdSetCgram a s
  | .hdSetDdram a => Sys2Proof.Machine.execHdSetDdram a s
  | .hdWriteData d => Sys2Proof.Machine.execHdWriteData d s
  | .hdReadBfAddr x => Sys2Proof.Machine.execHdReadBfAddr x s
  | .hdReadData x => Sys2Proof.Machine.execHdReadData x s
  | .loneNibble => Sys2Proof.Machine.execLoneNibble s

end Sys2Proof.Machine
end

