-- ==== Sys2Proof/Machine/HostPort.lean ====
section
/-! DEFINITION. What the outside does to the block: the request port (R71), the port bits outside the mask (R228) and
reset (R240), and where `withFetchWord` places an instruction. -/

namespace Sys2Proof.Machine

/-- A request presented and left in flight (R28): the same request as the arm of `exec` runs whole. -/
def presentInstr (i : Instr) (s : State) : Result :=
  match i with
  | .init => startRequest reqInit s
  | .sendCmd op => startRequest (reqSendCmd op) s
  | .sendData b => startRequest (reqSendData b) s
  | .writeString str => startRequest (reqWriteString str) s
  | .goto row col => startRequest (reqGoto row col) s
  | .defChar index pattern => startRequest (reqDefChar index pattern) s
  | .clear => startRequest reqClear s
  | .home => startRequest reqHome s
  | .setDisplay on => startRequest (reqSetDisplay on) s
  | .setCursor on => startRequest (reqSetCursor on) s
  | .setBlink on => startRequest (reqSetBlink on) s
  | .setBacklight on => startRequest (reqSetBacklight on) s
  | .setEntryMode inc shift => startRequest (reqSetEntryMode inc shift) s
  | .setFlag cls bits en => startRequest (reqSetFlag cls bits en) s
  | .reserved0E0F code => runReserved code s
  | .reserved101F code => runReserved code s
  | .reserved203F code => runReserved code s
  | .reserved407F code => runReserved code s
  | .reserved80FF code => runReserved code s
  | .hdClear => .refused .noRequest
  | .hdHome _ => .refused .noRequest
  | .hdEntryMode _ _ => .refused .noRequest
  | .hdDisplayControl _ _ _ => .refused .noRequest
  | .hdShift _ _ _ => .refused .noRequest
  | .hdFunctionSet _ _ _ _ => .refused .noRequest
  | .hdSetCgram _ => .refused .noRequest
  | .hdSetDdram _ => .refused .noRequest
  | .hdWriteData _ => .refused .noRequest
  | .hdReadBfAddr _ => .refused .noRequest
  | .hdReadData _ => .refused .noRequest
  | .loneNibble => .refused .noRequest

/-- The host drives port bit `i` (R228): its own bits only. -/
def writePort (i : Nat) (b : Bool) (s : State) : Result :=
  if s.cfg.pDataMask.testBit i then .refused .hostDataFieldWrite
  else if s.port.length ≤ i then .refused .noSuchPortBit
  else .next { s with port := s.port.set i (some b) }

/-- Reset (R240): every register at its reset value, the request in flight abandoned; the configuration is as built, and
the host's further moves are still to come. -/
def resetState (s : State) : State := { State.resetWith s.cfg with acts := s.acts }

/-- One move of the host. -/
def hostAct (a : HostAct) (s : State) : Result :=
  match a with
  | .call f => match decode (.request f) with
    | .ok i => exec i s
    | .error e => .refused (.notPresentable e)
  | .present f => match decode (.request f) with
    | .ok i => presentInstr i s
    | .error e => .refused (.notPresentable e)
  | .event => if s.busy then tickEvent s else .next s
  | .transfer => if s.busy then tickTransfer s else .next s
  | .portWrite i b => writePort i b s
  | .reset => .next (resetState s)

/-- The host makes no move: a request in flight goes on by one event (R18, R28); an idle block holds its levels (R227). -/
def noAct (s : State) : Result := if s.busy then tickEvent s else .next s

/-- Make `op` the next transfer of a request in flight, of the request `code` if none is, and let it pass (log 8). -/
def State.placeTransfer (s : State) (op : Op) (code : Byte) : State :=
  let s' := if s.busy then s else s.begin code
  { s' with todo := op :: s.todo, acts := .transfer :: s.acts }

/-- Place an instruction where the next step runs it: a request at the request port, an output word as the next transfer
of a request that sends such a word (SEND_CMD, SEND_DATA; INIT for the lone nibble); log 8. -/
def State.placeFrame (s : State) : Frame → State
  | .request f => { s with acts := .call f :: s.acts }
  | .word w => s.placeTransfer (.word w) (if wordRs w then 0x02#8 else 0x01#8)
  | .nibble w =>
    if w = 0b000010#6 then s.placeTransfer .lone 0x00#8 else { s with acts := .call [] :: s.acts }

end Sys2Proof.Machine
end

