-- ==== Sys2Proof/Machine/Step.lean ====
section
/-! DEFINITION. One step of the machine: the next move of the host, or, when it makes none, the next event of the request
in flight. An illegal configuration is refused (R241). -/

namespace Sys2Proof.Machine

/-- One step. -/
def step (s : State) : Host.Outcome State Fault Refusal :=
  if !s.cfg.legal then .refused .illegalConfig
  else match s.acts with
    | [] => noAct s
    | a :: rest => hostAct a { s with acts := rest }

/-- `s` with the opcode-table bits `w` placed where the next step runs them (log 8); bits that are no frame of the table
are placed as the empty frame, which the next step refuses. -/
def State.withFetchWord (s : State) (nbits w : Nat) : State :=
  match tableFrame nbits w with
  | some f => s.placeFrame f
  | none => { s with acts := .call [] :: s.acts }

end Sys2Proof.Machine
end

