-- ==== Sys2Proof/Machine/Views.lean ====
section
/-! DEFINITION. The derived views of TRACE: the controller's samples (R105), the transfer log (R113), the lower bound of a
trace's duration (R254), what the controller was last told (R53, R140, R184), and the text syntax of requests (R86). No
rule of the block reads any of them. -/

namespace Sys2Proof.Machine

/-- What the controller latches at one falling edge of EN: `(RS, RW, DBUS)` (R105). -/
structure Sample where
  rs : Option Bool
  rw : Option Bool
  dbus : Option Nibble
  deriving DecidableEq, Repr

/-- The line levels in force in the middle of a trace. `up` says that a `SET(EN,1)` stands before, with no `SET(EN,0)` in
between. -/
structure Levels where
  rs : Option Bool
  rw : Option Bool
  dbus : Option Nibble
  up : Bool
  deriving DecidableEq, Repr

/-- No line driven yet. -/
def Levels.start : Levels := ⟨none, none, none, false⟩

/-- The levels after one more event. -/
def Levels.after (l : Levels) : Event → Levels
  | .dir _ => l
  | .set .rs b => { l with rs := some b }
  | .set .rw b => { l with rw := some b }
  | .set .en b => { l with up := b }
  | .set .bl _ => l
  | .dbus v => { l with dbus := some v }
  | .wait _ => l

/-- The levels in force at the end of a trace, from `l`. -/
def Levels.afterAll (l : Levels) (t : List Event) : Levels := t.foldl Levels.after l

/-- Does the controller sample at this event (R105)? -/
def Levels.samplesAt (l : Levels) : Event → Bool
  | .set .en false => l.up
  | _ => false

/-- The sampling view from given levels (R105). -/
def samplesFrom (l : Levels) : List Event → List Sample
  | [] => []
  | e :: es =>
    if l.samplesAt e then ⟨l.rs, l.rw, l.dbus⟩ :: samplesFrom (l.after e) es
    else samplesFrom (l.after e) es

/-- `samples(TRACE)` (R105). -/
def samples (t : List Event) : List Sample := samplesFrom Levels.start t

/-- An entry of the transfer log (R113). -/
inductive Xfer where
  /-- `N(v)` -/
  | n (v : Nibble)
  /-- `C(op, k)` -/
  | c (op : Byte) (k : Wait)
  /-- `D(b)` -/
  | d (b : Byte)
  /-- `BL(b)` -/
  | bl (b : Bool)
  /-- `DIR(S)` -/
  | dir (lines : List Line)
  deriving DecidableEq, Repr

/-- The entry that a byte's or nibble's trailing wait closes: one nibble sampled is `N`, two are a byte, high nibble first,
and RS tells `C` from `D` (R113). -/
def closeXfer (rs : Option Bool) (nibs : List (Option Nibble)) (k : Wait) : List Xfer :=
  match nibs with
  | [some v] => [.n v]
  | [some h, some l] => if rs = some true then [.d (h ++ l)] else [.c (h ++ l) k]
  | _ => []

/-- The transfer log from given levels and nibbles sampled since the last entry (R113). -/
def xferFrom (l : Levels) (nibs : List (Option Nibble)) : List Event → List Xfer
  | [] => []
  | .dir s :: es => .dir s :: xferFrom l nibs es
  | .set .bl b :: es => .bl b :: xferFrom l nibs es
  | .set .rs b :: es => xferFrom (l.after (.set .rs b)) nibs es
  | .set .rw b :: es => xferFrom (l.after (.set .rw b)) nibs es
  | .set .en b :: es =>
    xferFrom (l.after (.set .en b)) (if l.samplesAt (.set .en b) then nibs ++ [l.dbus] else nibs) es
  | .dbus v :: es => xferFrom (l.after (.dbus v)) nibs es
  | .wait .exec :: es => closeXfer l.rs nibs .exec ++ xferFrom l [] es
  | .wait .long :: es => closeXfer l.rs nibs .long ++ xferFrom l [] es
  | .wait .as :: es => xferFrom l nibs es
  | .wait .pulse :: es => xferFrom l nibs es

/-- `XFER(TRACE)` (R113). -/
def xfer (t : List Event) : List Xfer := xferFrom Levels.start [] t

/-- The parameter `T_k` (R10). -/
def waitTime (c : Cfg) : Wait → Nat
  | .as => c.tAs
  | .pulse => c.tPulse
  | .exec => c.tExec
  | .long => c.tLong

/-- The lower bound of a trace's duration: the sum of its waits (R254). -/
def lowerBound (c : Cfg) : List Event → Nat
  | [] => 0
  | .wait k :: es => waitTime c k + lowerBound c es
  | .dir _ :: es => lowerBound c es
  | .set _ _ :: es => lowerBound c es
  | .dbus _ :: es => lowerBound c es

/-- How many events of a trace are `e`. -/
def countEvent (e : Event) (t : List Event) : Nat := t.count e

/-- The controller's two spaces a data write can go to (R53). -/
inductive Space where
  | ddram | cgram
  deriving DecidableEq, Repr

/-- Is `op` a command of the class with opcode `cls` (R78, R80: the class is the byte's leading one)? -/
def isOfClass (cls op : Byte) : Bool := op.toNat / cls.toNat == 1

/-- Is `op` clear-display, `HD.CLEAR`? -/
def isClear (h : HDTable) (op : Byte) : Bool := op == h.clear

/-- Is `op` return-home, `HD.HOME` with either value of its don't-care bit 0 (R78, R107)? -/
def isHome (h : HDTable) (op : Byte) : Bool := op ||| 1#8 == h.home ||| 1#8

/-- The space a command makes current, if it selects one (R53, R184), the commands taken from the block's HD table (R14). That
clear and home select DDRAM is the spec's general knowledge (R184, R247, 93 G9); that a byte which a table makes both an
address command and clear or home counts as the address command is a DESIGN CHOICE (log 17). -/
def spaceOf (h : HDTable) (op : Byte) : Option Space :=
  if isOfClass h.setDdram op then some .ddram
  else if isOfClass h.setCgram op then some .cgram
  else if isClear h op || isHome h op then some .ddram
  else none

/-- The space the next data write goes to, "according to which address command the controller last received" (R53).
Every command counts as read in 4-bit pairs, also after a raw Function Set with DL = 1, where the spec lets the controller read
anything (93 U27, R250) (DESIGN CHOICE, log 26). -/
def dataSpace (h : HDTable) (cur : Option Space) : List Xfer → Option Space
  | [] => cur
  | .c op _ :: r => dataSpace h ((spaceOf h op).or cur) r
  | .n _ :: r => dataSpace h cur r
  | .d _ :: r => dataSpace h cur r
  | .bl _ :: r => dataSpace h cur r
  | .dir _ :: r => dataSpace h cur r

/-- The command of class `cls` the controller last received (R140), every command counted as read in 4-bit pairs (DESIGN CHOICE,
log 26). -/
def lastOfClass (cls : Byte) (cur : Option Byte) : List Xfer → Option Byte
  | [] => cur
  | .c op _ :: r => lastOfClass cls (if isOfClass cls op then some op else cur) r
  | .n _ :: r => lastOfClass cls cur r
  | .d _ :: r => lastOfClass cls cur r
  | .bl _ :: r => lastOfClass cls cur r
  | .dir _ :: r => lastOfClass cls cur r

/-- A byte in the request syntax, in decimal (R86). -/
def byteText (b : Byte) : String := Nat.repr b.toNat

/-- A byte list in the request syntax (R86). -/
def bytesText (bs : List Byte) : String := "[" ++ String.intercalate ", " (bs.map byteText) ++ "]"

/-- `on|off` (R86). -/
def onText (b : Bool) : String := if b then "on" else "off"

/-- A request in the text syntax of R86; none for what is no request. -/
def requestText : Instr → Option String
  | .init => some "INIT"
  | .sendCmd op => some ("CMD " ++ byteText op)
  | .sendData b => some ("DATA " ++ byteText b)
  | .writeString s => some ("STR " ++ bytesText s)
  | .goto row col => some ("GOTO " ++ byteText row ++ ", " ++ byteText col)
  | .defChar index pattern => some ("DEFCHAR " ++ byteText index ++ ", " ++ bytesText pattern)
  | .clear => some "CLEAR"
  | .home => some "HOME"
  | .setDisplay on => some ("DISPLAY " ++ onText on)
  | .setCursor on => some ("CURSOR " ++ onText on)
  | .setBlink on => some ("BLINK " ++ onText on)
  | .setBacklight on => some ("BACKLIGHT " ++ onText on)
  | .setEntryMode inc shift =>
    some ("ENTRY " ++ (if inc then "inc" else "dec") ++ ", " ++ (if shift then "shift" else "noshift"))
  | .setFlag cls bits en => some ("FLAG " ++ byteText cls ++ ", " ++ byteText bits ++ ", " ++ onText en)
  | .reserved0E0F _ => none
  | .reserved101F _ => none
  | .reserved203F _ => none
  | .reserved407F _ => none
  | .reserved80FF _ => none
  | .hdClear => none
  | .hdHome _ => none
  | .hdEntryMode _ _ => none
  | .hdDisplayControl _ _ _ => none
  | .hdShift _ _ _ => none
  | .hdFunctionSet _ _ _ _ => none
  | .hdSetCgram _ => none
  | .hdSetDdram _ => none
  | .hdWriteData _ => none
  | .hdReadBfAddr _ => none
  | .hdReadData _ => none
  | .loneNibble => none

end Sys2Proof.Machine
end

