-- ==== Sys2Proof/Safety.lean ====
section
/-! DEFINITION. What counts as a safe run, and the terms claims are stated in: the end of a run and a good run (R242), when a
request is accepted (R212), the state after some events, and the invariants of the machine. -/

namespace Sys2Proof.Machine

/-- A run has ended: the host presents no further request and BUSY = 0 (R242). That it goes on while the host has a move that is no
request, a reset among them, is a DESIGN CHOICE (log 27). -/
def State.atEnd (s : State) : Bool := s.acts.isEmpty && !s.busy

/-- A good end: no fault recorded (R242, R214) since the last reset (log 27). -/
def State.good (s : State) : Bool := !s.fault.v

/-- The final state of a run (R242): `(TRACE, SHADOW, PHASE, FAULT, RS, RW, EN, DBUS, BL, DIR)`. -/
def State.final (s : State) :
    List Event × Shadow × BitVec 4 × FaultReg × Option Bool × Option Bool × Option Bool × Option Nibble ×
      Option Bool × List Line :=
  (s.trace, s.shadow, s.phase, s.fault, s.rs, s.rw, s.en, s.dbus, s.bl, s.dir)

/-- A block that is built (R241), not halted (R214) and not busy (R29). -/
structure State.Idle (s : State) : Prop where
  legal : s.cfg.legal = true
  noFault : s.fault.v = false
  notBusy : s.busy = false

/-- A block that accepts runtime requests: idle, and in phase Ready (R173, R212). -/
structure State.Ready (s : State) : Prop extends State.Idle s where
  phase : s.phase = 9#4

/-- The request code of an instruction (R72, R74); none for an output word. -/
def requestCode : Instr → Option Byte
  | .init => some 0x00#8
  | .sendCmd _ => some 0x01#8
  | .sendData _ => some 0x02#8
  | .writeString _ => some 0x03#8
  | .goto _ _ => some 0x04#8
  | .defChar _ _ => some 0x05#8
  | .clear => some 0x06#8
  | .home => some 0x07#8
  | .setDisplay _ => some 0x08#8
  | .setCursor _ => some 0x09#8
  | .setBlink _ => some 0x0A#8
  | .setBacklight _ => some 0x0B#8
  | .setEntryMode _ _ => some 0x0C#8
  | .setFlag _ _ _ => some 0x0D#8
  | .reserved0E0F code => some code
  | .reserved101F code => some code
  | .reserved203F code => some code
  | .reserved407F code => some code
  | .reserved80FF code => some code
  | .hdClear => none
  | .hdHome _ => none
  | .hdEntryMode _ _ => none
  | .hdDisplayControl _ _ _ => none
  | .hdShift _ _ _ => none
  | .hdFunctionSet _ _ _ _ => none
  | .hdSetCgram _ => none
  | .hdSetDdram _ => none
  | .hdWriteData _ => none
  | .hdReadBfAddr _ => none
  | .hdReadData _ => none
  | .loneNibble => none

/-- The state after a fault of a request: the state before it, plus FAULT (R213). -/
def State.faulted (s : State) (cause : BitVec 4) (code : Byte) : State :=
  { s with fault := ⟨true, cause, code⟩ }

/-- The state after an accepted request that emitted `es`, the last of them a byte sent with RS at `rs` and `v` the last
nibble: the lines, the port's data field, TRACE and SEQ as R31, R33, R35, R28 and R212 give them, and nothing else.
SEQ.POS keeps the count of the request that is over (DEDUCED, log 21). -/
def State.sent (s : State) (es : List Event) (rs : Bool) (v : Nibble) : State :=
  { s with trace := s.trace ++ es, pos := es.length, busy := false, active := none, rs := some rs, rw := some false,
           en := some false, dbus := some v, port := drivePort s.cfg v s.port }

/-- A port word all of whose bits are known (R33), bit 0 first. -/
def knownPort {w : Nat} (n : BitVec w) : List (Option Bool) := (List.range w).map fun i => some (n.getLsbD i)

/-- The host is not about to reset the platform. -/
def State.noReset (s : State) : Bool := s.acts.head? != some HostAct.reset

/-! Invariants -/

/-- R29, R28: BUSY is 1 exactly while a request is active, and nothing is left to do when none is. -/
structure BusyInv (s : State) : Prop where
  active : s.busy = s.active.isSome
  todo : s.busy = false → s.todo = []

/-- The register writes before the next event are done (R131: "before any event"; R161): what is left begins with a
transfer or an event. -/
def settledOps : List Op → Bool
  | [] => true
  | .emit _ :: _ => true
  | .word _ :: _ => true
  | .lone :: _ => true
  | .phase _ :: _ => false
  | .zeroShadow :: _ => false
  | .flag _ _ _ :: _ => false

/-- Between steps no register write is pending before the next event, and a busy block has an event to come (R28, R29). -/
structure SettledInv (s : State) : Prop where
  settled : settledOps s.todo = true
  more : s.busy = true → s.todo ≠ []
  idle : s.busy = false → s.todo = []

/-- The PHASE values still to be written. -/
def phasesOf : List Op → List (BitVec 4)
  | [] => []
  | .phase p :: r => p :: phasesOf r
  | .emit _ :: r => phasesOf r
  | .word _ :: r => phasesOf r
  | .lone :: r => phasesOf r
  | .zeroShadow :: r => phasesOf r
  | .flag _ _ _ :: r => phasesOf r

/-- R27: PHASE and the values still to be written rise strictly, up to 9; an idle block has none to write. -/
structure PhaseInv (s : State) : Prop where
  rises : (s.phase :: phasesOf s.todo).Pairwise (fun p q => p.toNat < q.toNat)
  top : ∀ p ∈ s.phase :: phasesOf s.todo, p.toNat ≤ 9
  idle : s.busy = false → s.todo = []

/-- An operation that does not drive RW high: no such event, no word with RW = 1. -/
def Op.rwLow : Op → Bool
  | .emit e => e != .set .rw true
  | .word w => !wordRw w
  | .lone => true
  | .phase _ => true
  | .zeroShadow => true
  | .flag _ _ _ => true

/-- R68, R82: RW has never been driven 1 and will not be. -/
structure RwInv (s : State) : Prop where
  line : s.rw ≠ some true
  trace : Event.set .rw true ∉ s.trace
  todo : ∀ op ∈ s.todo, op.rwLow = true

/-- A slot that holds no value or only flags of its own class (R24). -/
def slotOwn (h : HDTable) (sh : Shadow) (i : InstrClass) : Prop :=
  ∀ v, sh.get i = some v → v &&& ~~~(i.mask h) = 0#8

/-- A flag call within its class's flags (R130, R134, R170). -/
def Op.flagOwn (h : HDTable) : Op → Prop
  | .flag cls bits _ => ∀ i, slotOf h cls = some i → bits &&& ~~~(i.mask h) = 0#8
  | .emit _ => True
  | .word _ => True
  | .lone => True
  | .phase _ => True
  | .zeroShadow => True

/-- R24, R25: no slot ever holds a flag of another class; the mask of the two address classes is 0, so slots 4 and 5 hold
0 or nothing. -/
structure ShadowInv (s : State) : Prop where
  slots : ∀ i, slotOwn s.cfg.hd s.shadow i
  todo : ∀ op ∈ s.todo, op.flagOwn s.cfg.hd

/-- R30, R211: without a fault CAUSE and REQ are 0; with one, CAUSE is one of the codes 1 to 12. -/
structure FaultInv (s : State) : Prop where
  none : s.fault.v = false → s.fault.cause = 0#4 ∧ s.fault.req = 0#8
  some : s.fault.v = true → 1 ≤ s.fault.cause.toNat ∧ s.fault.cause.toNat ≤ 12

end Sys2Proof.Machine
end

