-- ==== Sys2Proof/WellFormed.lean ====
section
/-! DEFINITION. Well-formed instructions: every operand has its type by construction (R73), so the one check is that a
reserved request code lies in its row's range (R74). An operand out of its LEGAL range (a row of 0, a pattern of 7 bytes)
is well formed: it is presented, and faults (R73, R181, R183, R134). -/

namespace Sys2Proof

/-- Is the term one the encodings of R71 to R78 can express? -/
def Instr.wf : Instr → Bool
  | .init => true
  | .sendCmd _ => true
  | .sendData _ => true
  | .writeString _ => true
  | .goto _ _ => true
  | .defChar _ _ => true
  | .clear => true
  | .home => true
  | .setDisplay _ => true
  | .setCursor _ => true
  | .setBlink _ => true
  | .setBacklight _ => true
  | .setEntryMode _ _ => true
  | .setFlag _ _ _ => true
  | .reserved0E0F code => code &&& 0xFE#8 == 0x0E#8
  | .reserved101F code => code &&& 0xF0#8 == 0x10#8
  | .reserved203F code => code &&& 0xE0#8 == 0x20#8
  | .reserved407F code => code &&& 0xC0#8 == 0x40#8
  | .reserved80FF code => code &&& 0x80#8 == 0x80#8
  | .hdClear => true
  | .hdHome _ => true
  | .hdEntryMode _ _ => true
  | .hdDisplayControl _ _ _ => true
  | .hdShift _ _ _ => true
  | .hdFunctionSet _ _ _ _ => true
  | .hdSetCgram _ => true
  | .hdSetDdram _ => true
  | .hdWriteData _ => true
  | .hdReadBfAddr _ => true
  | .hdReadData _ => true
  | .loneNibble => true

end Sys2Proof
end

