-- ==== Sys2Proof/Certificates/Slice0/Obligations.lean ====
section
/-! DEFINITION. The statements for the provers, from the numbered rules of spec/. Traces, addresses and flag values are written
out here from the rules' own words, not taken from the model's definitions. -/

open Sys2Proof Sys2Proof.Machine

/-! The rules' event lists -/

namespace Sys2Proof.Claims

/-- The low nibble of a byte: the last one on the bus (R104). -/
def low (b : Byte) : Nibble := b.extractLsb' 0 4

/-- The 16 events of one byte sent with RS at `rs`, ending in `WAIT(k)` (R102, R104, R106, R108). -/
def byteSent (rs : Bool) (b : Byte) (k : Wait) : List Event :=
  [.set .rs rs, .set .rw false, .wait .as,
   .dbus 0#4, .dbus (b.extractLsb' 4 4), .set .en true, .wait .pulse, .set .en false, .wait .pulse,
   .dbus 0#4, .dbus (b.extractLsb' 0 4), .set .en true, .wait .pulse, .set .en false, .wait .pulse,
   .wait k]

/-- A command's events (R106), with the long wait exactly when the byte is in `P_LONG_OPS` (R107). -/
def cmdSent (c : Cfg) (op : Byte) : List Event :=
  byteSent false op (if op ∈ c.pLongOps then .long else .exec)

/-- A data write's events (R108). -/
def dataSent (b : Byte) : List Event := byteSent true b .exec

/-- The events of initialization step 3 (R164). -/
def loneSent : List Event :=
  [.set .rs false, .set .rw false, .wait .as,
   .dbus 0#4, .dbus 0b0010#4, .set .en true, .wait .pulse, .set .en false, .wait .pulse, .wait .exec]

/-- A slot's new value under FLAG (R131). -/
def flagged (v bits : Byte) (en : Bool) : Byte := if en then v ||| bits else v &&& ~~~bits

/-- The state after one output word sent outside any acceptance: CMD's or DATA's state written (R106, R108). -/
def wordSent (s : State) (rs : Bool) (b : Byte) : State :=
  { s with trace := s.trace ++ (if rs then dataSent b else cmdSent s.cfg b), pos := s.pos + 16, rs := some rs,
           rw := some false, en := some false, dbus := some (low b), port := drivePort s.cfg (low b) s.port }

/-- A Boolean field as a bit of a byte. -/
def bit (b : Bool) (v : Byte) : Byte := if b then v else 0#8

/-- GOTO's address (R180). -/
def address (row col : Nat) : Nat :=
  if row ≤ 2 then (row - 1) * 0x40 + (col - 1) else (row - 3) * 0x40 + 0x14 + (col - 1)

end Sys2Proof.Claims

open Sys2Proof.Claims

/-! Reset and configuration -/

/-- R39: what reset leaves, in every configuration. That no PORT bit is known is the model's choice where the rule says
"unspecified" (log 5). -/
def Obligations.ResetLeavesTheStatedValues : Prop :=
  ∀ c : Cfg,
    let s := State.resetWith c
    (∀ i, s.shadow.get i = none) ∧ s.phase = 0#4 ∧ s.active = none ∧ s.pos = 0 ∧ s.busy = false ∧
      s.fault.v = false ∧ s.fault.cause = 0#4 ∧ s.fault.req = 0#8 ∧ s.rs = none ∧ s.rw = none ∧ s.en = none ∧
      s.bl = none ∧ s.dbus = none ∧ s.dir = [] ∧ (∀ b ∈ s.port, b = none) ∧ s.trace = [] ∧ s.cfg = c

/-- R240: reset at any time, also inside a request, abandons the request and gives every register its reset value.
A reset as a move of the host held in State is the model's choice (log 3), and so is
that no PORT bit is known afterwards, where R39 says "unspecified" (log 5). -/
def Obligations.ResetAbandonsTheRequest : Prop :=
  ∀ (s : State) (rest : List HostAct), s.cfg.legal = true → s.acts = .reset :: rest →
    step s = .next { State.resetWith s.cfg with acts := rest }

/-- R241: a configuration that breaks any of the refusal conditions 1 to 6 has no runs. Condition 6 here is the class
opcodes and the flags below them. -/
def Obligations.IllegalConfigurationIsRefused : Prop :=
  ∀ s : State,
    ¬((1 ≤ s.cfg.pLines ∧ s.cfg.pLines ≤ 4 ∧ 1 ≤ s.cfg.pCols ∧
          s.cfg.pCols ≤ (if s.cfg.pLines ≤ 2 then 40 else 20)) ∧
        (s.cfg.pDataMask = 0xF <<< s.cfg.pDataShift ∧ s.cfg.pDataShift + 4 ≤ s.cfg.pPortWidth) ∧
        (s.cfg.bAs ≤ s.cfg.tAs ∧ s.cfg.bPulse ≤ s.cfg.tPulse ∧ s.cfg.bExec ≤ s.cfg.tExec ∧
          s.cfg.bLong ≤ s.cfg.tLong ∧ s.cfg.tExec < s.cfg.tLong) ∧
        (∀ f ∈ s.cfg.initSchedule.step4, f.cls = s.cfg.hd.functionSet ∧ f.bits ≠ 0#8 ∧
          f.bits &&& ~~~(s.cfg.hd.fsDl ||| s.cfg.hd.fsF ||| s.cfg.hd.fsN) = 0#8 ∧
          (if f.en then f.bits &&& (s.cfg.hd.fsDl ||| s.cfg.hd.fsF) = 0#8 else f.bits &&& s.cfg.hd.fsN = 0#8)) ∧
        (∀ f ∈ s.cfg.initSchedule.step6, f.cls = s.cfg.hd.displayControl ∧ f.bits ≠ 0#8 ∧
          f.bits &&& ~~~(s.cfg.hd.dcD ||| s.cfg.hd.dcC ||| s.cfg.hd.dcB) = 0#8 ∧
          (if f.en then f.bits &&& (s.cfg.hd.dcC ||| s.cfg.hd.dcB) = 0#8 else f.bits &&& s.cfg.hd.dcD = 0#8)) ∧
        (∀ f ∈ s.cfg.initSchedule.step7, f.cls = s.cfg.hd.entryMode ∧ f.bits ≠ 0#8 ∧
          f.bits &&& ~~~(s.cfg.hd.emId ||| s.cfg.hd.emS) = 0#8 ∧
          (if f.en then f.bits &&& s.cfg.hd.emS = 0#8 else f.bits &&& s.cfg.hd.emId = 0#8)) ∧
        (∀ flag ∈ [s.cfg.hd.fsDl, s.cfg.hd.fsF, s.cfg.hd.fsN],
          ∃ f ∈ s.cfg.initSchedule.step4, f.bits &&& flag ≠ 0#8) ∧
        (∀ flag ∈ [s.cfg.hd.dcD, s.cfg.hd.dcC, s.cfg.hd.dcB],
          ∃ f ∈ s.cfg.initSchedule.step6, f.bits &&& flag ≠ 0#8) ∧
        (∀ flag ∈ [s.cfg.hd.emId, s.cfg.hd.emS],
          ∃ f ∈ s.cfg.initSchedule.step7, f.bits &&& flag ≠ 0#8) ∧
        (s.cfg.hd.clear ∈ s.cfg.pLongOps ∧ s.cfg.hd.home ∈ s.cfg.pLongOps) ∧
        (∀ i : InstrClass, i.opcode s.cfg.hd = 1#8 <<< (i.slot + 2)) ∧
        (∀ i : InstrClass, i.isToggle = true → (i.mask s.cfg.hd).toNat < (i.opcode s.cfg.hd).toNat)) →
    step s = .refused .illegalConfig

/-- R34: no step writes the configuration. -/
def Obligations.StepKeepsTheConfiguration : Prop :=
  ∀ s t : State, step s = .next t → t.cfg = s.cfg

/-! Bus events and procedures -/

/-- R100: TRACE, SEQ.POS and the lines after each event, and nothing else. -/
def Obligations.EmitHasTheListedEffect : Prop :=
  ∀ (s : State) (lines : List Line) (b : Bool) (v : Nibble) (k : Wait),
    let s' : Event → State := fun e => { s with trace := s.trace ++ [e], pos := s.pos + 1 }
    s.emit (.dir lines) = { s' (.dir lines) with dir := lines } ∧
    s.emit (.set .rs b) = { s' (.set .rs b) with rs := some b } ∧
    s.emit (.set .rw b) = { s' (.set .rw b) with rw := some b } ∧
    s.emit (.set .en b) = { s' (.set .en b) with en := some b } ∧
    s.emit (.set .bl b) = { s' (.set .bl b) with bl := some b } ∧
    s.emit (.dbus v) = { s' (.dbus v) with dbus := some v, port := drivePort s.cfg v s.port } ∧
    s.emit (.wait k) = s' (.wait k)

/-- R33: `DBUS(v)` sets `PORT[P_DATA_SHIFT + i] = v[i]` and leaves every bit outside the mask; on a port word that is wholly
known it is `PORT <- (PORT & ~P_DATA_MASK) | (zext(v) << P_DATA_SHIFT)`. -/
def Obligations.DbusIsAMaskedPortWrite : Prop :=
  ∀ (c : Cfg) (v : Nibble), c.legal = true →
    (∀ (p : List (Option Bool)) (i : Nat), c.pDataShift ≤ i → i < c.pDataShift + 4 → i < p.length →
      (drivePort c v p)[i]? = some (some (v.getLsbD (i - c.pDataShift)))) ∧
    (∀ (p : List (Option Bool)) (i : Nat), i < c.pDataShift ∨ c.pDataShift + 4 ≤ i →
      (drivePort c v p)[i]? = p[i]?) ∧
    (∀ n : BitVec c.pPortWidth,
      drivePort c v (knownPort n) =
        knownPort (n &&& ~~~BitVec.ofNat c.pPortWidth c.pDataMask ||| v.setWidth c.pPortWidth <<< c.pDataShift))

/-- R105: in every trace each NIB gives exactly one sample, `(RS, RW, v)` with the RS and RW in force before it. -/
def Obligations.NibbleGivesOneSample : Prop :=
  ∀ (p : List Event) (v : Nibble),
    let l := Levels.start.afterAll p
    samples (p ++ [.dbus 0#4, .dbus v, .set .en true, .wait .pulse, .set .en false, .wait .pulse]) =
      samples p ++ [⟨l.rs, l.rw, some v⟩]

/-- R113: the transfer log of a command is `C(op,k)`, of a data write `D(b)`, of the lone nibble `N(2)`, whatever the
lines were. -/
def Obligations.TransferLogOfAWord : Prop :=
  ∀ (l : Levels) (b : Byte),
    xferFrom l [] (byteSent false b .exec) = [.c b .exec] ∧
    xferFrom l [] (byteSent false b .long) = [.c b .long] ∧
    xferFrom l [] (dataSent b) = [.d b] ∧
    xferFrom l [] loneSent = [.n 2#4]

/-! Requests: what each one does when it is accepted -/

/-- R109, R106, R107: SEND_CMD sends any byte as a command; SHADOW and everything else stay.
That SEQ.POS keeps its count in the idle block is the model's inference (log 21). -/
def Obligations.SendCmdSendsTheByte : Prop :=
  ∀ (s : State) (op : Byte), s.Ready →
    exec (.sendCmd op) s = .next (s.sent (cmdSent s.cfg op) false (low op))

/-- R110, R108: SEND_DATA sends any byte with RS = 1 and never waits long.
That SEQ.POS keeps its count in the idle block is the model's inference (log 21). -/
def Obligations.SendDataSendsTheByte : Prop :=
  ∀ (s : State) (b : Byte), s.Ready →
    exec (.sendData b) s = .next (s.sent (dataSent b) true (low b))

/-- R111, R112: CLEAR and HOME send their byte and wait T_LONG.
That SEQ.POS keeps its count in the idle block is the model's inference (log 21). -/
def Obligations.ClearAndHomeWaitLong : Prop :=
  ∀ s : State, s.Ready →
    exec .clear s = .next (s.sent (byteSent false s.cfg.hd.clear .long) false (low s.cfg.hd.clear)) ∧
    exec .home s = .next (s.sent (byteSent false s.cfg.hd.home .long) false (low s.cfg.hd.home))

/-- R185, R186: WRITE_STRING is one data write per byte, in order; no byte, no event.
That SEQ.POS keeps its count in the idle block is the model's inference (log 21). -/
def Obligations.WriteStringSendsEachByte : Prop :=
  ∀ (s : State) (bs : List Byte), s.Ready →
    exec (.writeString bs) s = .next
      (match bs.getLast? with
       | none => { s with pos := 0, busy := false, active := none }
       | some b => s.sent (bs.flatMap dataSent) true (low b))

/-- R182, R180: GOTO in range sends one SET_DDRAM command with the address.
That SEQ.POS keeps its count in the idle block is the model's inference (log 21). -/
def Obligations.GotoSendsTheAddress : Prop :=
  ∀ (s : State) (row col : Byte), s.Ready →
    1 ≤ row.toNat → row.toNat ≤ s.cfg.pLines → 1 ≤ col.toNat → col.toNat ≤ s.cfg.pCols →
    let op := s.cfg.hd.setDdram ||| BitVec.ofNat 8 (address row.toNat col.toNat)
    op.toNat = 0x80 + address row.toNat col.toNat ∧
    exec (.goto row col) s = .next (s.sent (cmdSent s.cfg op) false (low op))

/-- R183: DEF_CHAR sends one SET_CGRAM command with address `index << 3`, then the eight bytes of the pattern in order.
That SEQ.POS keeps its count in the idle block is the model's inference (log 21). -/
def Obligations.DefCharSendsTheEightRows : Prop :=
  ∀ (s : State) (index p0 p1 p2 p3 p4 p5 p6 p7 : Byte), s.Ready → index.toNat ≤ 7 →
    let op := s.cfg.hd.setCgram ||| index <<< 3
    op.toNat = 0x40 + index.toNat * 8 ∧
    exec (.defChar index [p0, p1, p2, p3, p4, p5, p6, p7]) s =
      .next (s.sent (cmdSent s.cfg op ++ dataSent p0 ++ dataSent p1 ++ dataSent p2 ++ dataSent p3 ++ dataSent p4 ++
        dataSent p5 ++ dataSent p6 ++ dataSent p7) true (low p7))

/-- R135, R136, R137, R131: the display, cursor and blink requests change one flag of slot 1 and resend the whole byte.
That SEQ.POS keeps its count in the idle block is the model's inference (log 21). -/
def Obligations.DisplayTogglesResendTheSlot : Prop :=
  ∀ (s : State) (on : Bool) (v : Byte), s.Ready → s.shadow.displayControl = some v →
    let after : Byte → State := fun f =>
      let v' := flagged v f on
      { s.sent (cmdSent s.cfg (s.cfg.hd.displayControl ||| v')) false (low (s.cfg.hd.displayControl ||| v')) with
        shadow := { s.shadow with displayControl := some v' } }
    exec (.setDisplay on) s = .next (after s.cfg.hd.dcD) ∧
    exec (.setCursor on) s = .next (after s.cfg.hd.dcC) ∧
    exec (.setBlink on) s = .next (after s.cfg.hd.dcB)

/-- R138: SET_ENTRY_MODE sends two commands, I/D first; when the slot held only its own flags, it ends as the two operands
say.
That SEQ.POS keeps its count in the idle block (log 21) and that a class's flags are distinct single bits (log 7) are the
model's inferences. -/
def Obligations.EntryModeSendsTwoCommands : Prop :=
  ∀ (s : State) (inc shift : Bool) (v : Byte), s.Ready → s.shadow.entryMode = some v →
    let v1 := flagged v s.cfg.hd.emId inc
    let v2 := flagged v1 s.cfg.hd.emS shift
    exec (.setEntryMode inc shift) s = .next
      { s.sent (cmdSent s.cfg (s.cfg.hd.entryMode ||| v1) ++ cmdSent s.cfg (s.cfg.hd.entryMode ||| v2)) false
          (low (s.cfg.hd.entryMode ||| v2)) with
        shadow := { s.shadow with entryMode := some v2 } } ∧
    (v &&& ~~~(s.cfg.hd.emId ||| s.cfg.hd.emS) = 0#8 →
      v2 = (bit inc s.cfg.hd.emId ||| bit shift s.cfg.hd.emS))

/-- R134, R131: SET_FLAG on a toggle class, with flags of that class and not selecting the 8-bit interface.
That SEQ.POS keeps its count in the idle block is the model's inference (log 21). -/
def Obligations.SetFlagResendsTheSlot : Prop :=
  ∀ (s : State) (i : InstrClass) (bits : Byte) (en : Bool) (v : Byte), s.Ready → i.isToggle = true →
    bits &&& ~~~(i.mask s.cfg.hd) = 0#8 →
    ¬(i = .functionSet ∧ en = true ∧ bits &&& s.cfg.hd.fsDl ≠ 0#8) → s.shadow.get i = some v →
    let v' := flagged v bits en
    exec (.setFlag (i.opcode s.cfg.hd) bits en) s = .next
      { s.sent (cmdSent s.cfg (i.opcode s.cfg.hd ||| v')) false (low (i.opcode s.cfg.hd ||| v')) with
        shadow := s.shadow.set v' i }

/-- R139: SET_BACKLIGHT drives BL, with no wait and nothing else; in a block without the backlight it faults with
E_NO_BACKLIGHT.
That SEQ.POS keeps its count in the idle block is the model's inference (log 21). -/
def Obligations.BacklightDrivesTheLine : Prop :=
  ∀ (s : State) (on : Bool), s.Ready →
    (s.cfg.pBacklight = true →
      let level := if on then s.cfg.pBlOnLevel else !s.cfg.pBlOnLevel
      exec (.setBacklight on) s = .next
        { s with trace := s.trace ++ [.set .bl level], pos := 1, busy := false, active := none, bl := some level }) ∧
    (s.cfg.pBacklight = false → exec (.setBacklight on) s = .next (s.faulted 5#4 0x0B#8))

/-- R171: the state after INIT, under every legal configuration and schedule.
That SEQ.POS keeps its count in the idle block (log 21) and that a class's flags are distinct single bits (log 7) are the
model's inferences. -/
def Obligations.InitReachesReady : Prop :=
  ∀ s : State, s.Idle → s.phase = 0#4 →
    ∃ es, exec .init s = .next
      { s with
        shadow := ⟨some s.cfg.hd.emId, some s.cfg.hd.dcD, some 0#8, some s.cfg.hd.fsN, some 0#8, some 0#8⟩
        phase := 9#4
        dir := [.db4, .db5, .db6, .db7, .rs, .rw, .en] ++ (if s.cfg.pBacklight then [.bl] else [])
        rs := some false, rw := some false, en := some false
        dbus := some (low s.cfg.hd.home)
        bl := if s.cfg.pBacklight then some s.cfg.pBlOnLevel else s.bl
        port := drivePort s.cfg (low s.cfg.hd.home) s.port
        trace := s.trace ++ es, pos := es.length, busy := false, active := none }

/-- R172: the default INIT transfer log, its 171 events and their kinds, and the same with the backlight. -/
def Obligations.InitDefaultTransferLog : Prop :=
  ∃ t u : State,
    exec .init State.reset = .next t ∧
    exec .init (State.resetWith { Cfg.standard with pBacklight := true }) = .next u ∧
    xfer t.trace = [.dir [.db4, .db5, .db6, .db7, .rs, .rw, .en], .n 2#4,
      .c 0x20#8 .exec, .c 0x20#8 .exec, .c 0x28#8 .exec, .c 0x0C#8 .exec, .c 0x0C#8 .exec, .c 0x0C#8 .exec,
      .c 0x06#8 .exec, .c 0x06#8 .exec, .c 0x01#8 .long, .c 0x02#8 .long] ∧
    xfer u.trace = [.dir [.db4, .db5, .db6, .db7, .rs, .rw, .en, .bl], .n 2#4,
      .c 0x20#8 .exec, .c 0x20#8 .exec, .c 0x28#8 .exec, .bl true, .c 0x0C#8 .exec, .c 0x0C#8 .exec,
      .c 0x0C#8 .exec, .c 0x06#8 .exec, .c 0x06#8 .exec, .c 0x01#8 .long, .c 0x02#8 .long] ∧
    t.trace.length = 171 ∧ u.trace.length = 172 ∧ (samples t.trace).length = 21 ∧
    t.trace.count (.wait .as) = 11 ∧ t.trace.count (.wait .pulse) = 42 ∧
    t.trace.count (.wait .exec) = 9 ∧ t.trace.count (.wait .long) = 2

/-- R170: under every legal schedule (with the standard HD table and long operations) the commands of steps 4, 6 and 7
are among two bytes each, as many as the schedule has calls, and the last of each step is 0x28, 0x0C and 0x06. -/
def Obligations.InitUnderEverySchedule : Prop :=
  ∀ c : Cfg, c.legal = true → c.hd = HDTable.standard → c.pLongOps = [0x01#8, 0x02#8, 0x03#8] →
    ∃ (t : State) (xs4 xs6 xs7 : List Byte),
      exec .init (State.resetWith c) = .next t ∧
      xfer t.trace =
        [.dir ([.db4, .db5, .db6, .db7, .rs, .rw, .en] ++ (if c.pBacklight then [.bl] else [])), .n 2#4] ++
        xs4.map (.c · .exec) ++ (if c.pBacklight then [.bl c.pBlOnLevel] else []) ++
        xs6.map (.c · .exec) ++ xs7.map (.c · .exec) ++ [.c 0x01#8 .long, .c 0x02#8 .long] ∧
      xs4.length = c.initSchedule.step4.length ∧ xs6.length = c.initSchedule.step6.length ∧
      xs7.length = c.initSchedule.step7.length ∧
      (∀ x ∈ xs4, x = 0x20#8 ∨ x = 0x28#8) ∧ (∀ x ∈ xs6, x = 0x08#8 ∨ x = 0x0C#8) ∧
      (∀ x ∈ xs7, x = 0x04#8 ∨ x = 0x06#8) ∧
      xs4.getLast? = some 0x28#8 ∧ xs6.getLast? = some 0x0C#8 ∧ xs7.getLast? = some 0x06#8

/-- R255: the waits of INIT under every legal schedule. -/
def Obligations.InitWaitCounts : Prop :=
  ∀ c : Cfg, c.legal = true → c.hd = HDTable.standard → c.pLongOps = [0x01#8, 0x02#8, 0x03#8] →
    let K := c.initSchedule.step4.length + c.initSchedule.step6.length + c.initSchedule.step7.length + 2
    ∃ t : State, exec .init (State.resetWith c) = .next t ∧
      t.trace.count (.wait .as) = K + 1 ∧ t.trace.count (.wait .pulse) = 4 * K + 2 ∧
      t.trace.count (.wait .exec) = K - 1 ∧ t.trace.count (.wait .long) = 2

/-- R74: a reserved request code faults with E_BAD_REQUEST, in every phase, and emits nothing. -/
def Obligations.ReservedCodesFault : Prop :=
  ∀ (s : State) (code : Byte), s.Idle →
    (code = 0x0E#8 ∨ code = 0x0F#8 → exec (.reserved0E0F code) s = .next (s.faulted 2#4 code)) ∧
    (0x10 ≤ code.toNat → code.toNat ≤ 0x1F → exec (.reserved101F code) s = .next (s.faulted 2#4 code)) ∧
    (0x20 ≤ code.toNat → code.toNat ≤ 0x3F → exec (.reserved203F code) s = .next (s.faulted 2#4 code)) ∧
    (0x40 ≤ code.toNat → code.toNat ≤ 0x7F → exec (.reserved407F code) s = .next (s.faulted 2#4 code)) ∧
    (0x80 ≤ code.toNat → exec (.reserved80FF code) s = .next (s.faulted 2#4 code))

/-- R76, R78: what sending each word of the table does: a command word as CMD, a data word as DATA. That a row of the table
stands for the block's sending of it is the model's choice (log 9). -/
def Obligations.OutputWordsAreSent : Prop :=
  ∀ (s : State) (b1 b2 b3 : Bool) (x : BitVec 2) (a6 : BitVec 6) (a7 : BitVec 7) (d : Byte),
    s.cfg.legal = true →
    exec .hdClear s = .next (wordSent s false 0x01#8) ∧
    exec (.hdHome b1) s = .next (wordSent s false (0x02#8 ||| bit b1 0x01#8)) ∧
    exec (.hdEntryMode b1 b2) s = .next (wordSent s false (0x04#8 ||| bit b1 0x02#8 ||| bit b2 0x01#8)) ∧
    exec (.hdDisplayControl b1 b2 b3) s =
      .next (wordSent s false (0x08#8 ||| bit b1 0x04#8 ||| bit b2 0x02#8 ||| bit b3 0x01#8)) ∧
    exec (.hdShift b1 b2 x) s =
      .next (wordSent s false (0x10#8 ||| bit b1 0x08#8 ||| bit b2 0x04#8 ||| x.setWidth 8)) ∧
    exec (.hdFunctionSet b1 b2 b3 x) s =
      .next (wordSent s false (0x20#8 ||| bit b1 0x10#8 ||| bit b2 0x08#8 ||| bit b3 0x04#8 ||| x.setWidth 8)) ∧
    exec (.hdSetCgram a6) s = .next (wordSent s false (0x40#8 ||| a6.setWidth 8)) ∧
    exec (.hdSetDdram a7) s = .next (wordSent s false (0x80#8 ||| a7.setWidth 8)) ∧
    exec (.hdWriteData d) s = .next (wordSent s true d)

/-- R77, R164: what sending the lone nibble does: ten events, one strobe (a row of the table as a sending: log 9). -/
def Obligations.LoneNibbleIsOneStrobe : Prop :=
  ∀ s : State, s.cfg.legal = true →
    exec .loneNibble s = .next
      { s with trace := s.trace ++ loneSent, pos := s.pos + 10, rs := some false, rw := some false,
               en := some false, dbus := some 0b0010#4, port := drivePort s.cfg 0b0010#4 s.port }

/-- R82: the block never issues a word with RW = 1; the refusal is the model's form of it (log 9). -/
def Obligations.ReadWordsAreNeverEmitted : Prop :=
  ∀ (s : State) (x : Byte),
    exec (.hdReadBfAddr x) s = .refused .neverEmitted ∧ exec (.hdReadData x) s = .refused .neverEmitted

/-! Faults -/

/-- R214: a halted block ignores every request. -/
def Obligations.HaltedBlockIgnoresRequests : Prop :=
  ∀ (s : State) (i : Instr) (code : Byte), s.cfg.legal = true → s.fault.v = true → i.wf = true →
    requestCode i = some code → exec i s = .next s

/-- R215, R29: a request presented while BUSY = 1 faults with E_BUSY, whatever it is; the request in flight is untouched. -/
def Obligations.BusyBlockFaultsEveryRequest : Prop :=
  ∀ (s : State) (i : Instr) (code : Byte), s.cfg.legal = true → s.fault.v = false → s.busy = true → i.wf = true →
    requestCode i = some code → exec i s = .next (s.faulted 1#4 code)

/-- R173: every request but INIT faults with E_NOT_READY while PHASE is not 9, whatever its operands. -/
def Obligations.NotReadyBlockFaultsRuntimeRequests : Prop :=
  ∀ (s : State) (i : Instr) (code : Byte), s.Idle → s.phase ≠ 9#4 → requestCode i = some code → i.wf = true →
    code ≠ 0#8 → code.toNat ≤ 0x0D → exec i s = .next (s.faulted 4#4 code)

/-- R160: INIT faults with E_REINIT unless PHASE is PowerOn. -/
def Obligations.SecondInitFaults : Prop :=
  ∀ s : State, s.Idle → s.phase ≠ 0#4 → exec .init s = .next (s.faulted 3#4 0x00#8)

/-- R181: a row outside 1..P_LINES is E_ROW_RANGE; a column outside 1..P_COLS is E_COL_RANGE, after the row. -/
def Obligations.GotoFaultsOutOfRange : Prop :=
  ∀ (s : State) (row col : Byte), s.Ready →
    (row.toNat < 1 ∨ s.cfg.pLines < row.toNat → exec (.goto row col) s = .next (s.faulted 6#4 0x04#8)) ∧
    (1 ≤ row.toNat → row.toNat ≤ s.cfg.pLines → col.toNat < 1 ∨ s.cfg.pCols < col.toNat →
      exec (.goto row col) s = .next (s.faulted 7#4 0x04#8))

/-- R183: an index above 7 is E_CHAR_INDEX; a pattern of a length other than 8 is E_PATTERN_LEN, after the index. -/
def Obligations.DefCharFaultsOnIndexOrLength : Prop :=
  ∀ (s : State) (index : Byte) (pattern : List Byte), s.Ready →
    (7 < index.toNat → exec (.defChar index pattern) s = .next (s.faulted 8#4 0x05#8)) ∧
    (index.toNat ≤ 7 → pattern.length ≠ 8 → exec (.defChar index pattern) s = .next (s.faulted 9#4 0x05#8))

/-- R134: SET_FLAG's three faults, in order. -/
def Obligations.SetFlagFaultsInOrder : Prop :=
  ∀ (s : State) (cls bits : Byte) (en : Bool), s.Ready →
    let toggles := [s.cfg.hd.entryMode, s.cfg.hd.displayControl, s.cfg.hd.shift, s.cfg.hd.functionSet]
    (cls ∉ toggles → exec (.setFlag cls bits en) s = .next (s.faulted 10#4 0x0D#8)) ∧
    (∀ i : InstrClass, i.isToggle = true → cls = i.opcode s.cfg.hd → bits &&& ~~~(i.mask s.cfg.hd) ≠ 0#8 →
      exec (.setFlag cls bits en) s = .next (s.faulted 11#4 0x0D#8)) ∧
    (cls = s.cfg.hd.functionSet → bits &&& ~~~(InstrClass.functionSet.mask s.cfg.hd) = 0#8 → en = true →
      bits &&& s.cfg.hd.fsDl ≠ 0#8 → exec (.setFlag cls bits en) s = .next (s.faulted 12#4 0x0D#8))

/-- R26, with the model's place for the check (log 4): a flag request that would read a slot with no value faults with
E_NOT_READY. No run reaches such a state. -/
def Obligations.UnwrittenSlotFaults : Prop :=
  ∀ (s : State) (on on' : Bool) (i : InstrClass) (bits : Byte), s.Ready →
    (s.shadow.displayControl = none →
      exec (.setDisplay on) s = .next (s.faulted 4#4 0x08#8) ∧
      exec (.setCursor on) s = .next (s.faulted 4#4 0x09#8) ∧
      exec (.setBlink on) s = .next (s.faulted 4#4 0x0A#8)) ∧
    (s.shadow.entryMode = none → exec (.setEntryMode on on') s = .next (s.faulted 4#4 0x0C#8)) ∧
    (i.isToggle = true → bits &&& ~~~(i.mask s.cfg.hd) = 0#8 → (i = .functionSet → bits &&& s.cfg.hd.fsDl = 0#8) →
      s.shadow.get i = none →
      exec (.setFlag (i.opcode s.cfg.hd) bits on) s = .next (s.faulted 4#4 0x0D#8))

/-- R213: faults are precise. Whatever the instruction and the state, a next state with another FAULT differs from the
state before in FAULT alone. -/
def Obligations.FaultsArePrecise : Prop :=
  ∀ (i : Instr) (s t : State), exec i s = .next t → t.fault ≠ s.fault → t = { s with fault := t.fault }

/-! What every step keeps -/

/-- R29, R28: BUSY is 1 exactly while a request is active. -/
def Obligations.StepKeepsBusyWithActive : Prop :=
  ∀ s t : State, BusyInv s → step s = .next t → BusyInv t

/-- R28, R29: between steps a busy block has an event to come, and no register write waits before it.
What is left of a request is the model's own record (log 2). -/
def Obligations.StepKeepsSettled : Prop :=
  ∀ s t : State, SettledInv s → step s = .next t → SettledInv t

/-- R27: PHASE stays legal and rises, strictly ordered, until a reset. -/
def Obligations.StepKeepsPhaseOrder : Prop :=
  ∀ s t : State, PhaseInv s → step s = .next t →
    PhaseInv t ∧ (s.noReset = true → s.phase.toNat ≤ t.phase.toNat)

/-- R82, R68: RW is never driven 1. -/
def Obligations.StepNeverDrivesRwHigh : Prop :=
  ∀ s t : State, RwInv s → step s = .next t → RwInv t

/-- R24, R25: no slot ever holds a flag of another class, and the two address slots hold 0 or nothing. -/
def Obligations.StepKeepsShadowOwnFlags : Prop :=
  ∀ s t : State, ShadowInv s → step s = .next t →
    ShadowInv t ∧
    (∀ v, t.shadow.setCgramAddr = some v → v = 0#8) ∧ (∀ v, t.shadow.setDdramAddr = some v → v = 0#8)

/-- R30, R211: FAULT.CAUSE is 0 without a fault and one of the codes 1 to 12 with one. -/
def Obligations.StepKeepsFaultRegister : Prop :=
  ∀ s t : State, FaultInv s → step s = .next t → FaultInv t

/-- The invariants hold at reset, in every configuration. -/
def Obligations.ResetMeetsTheInvariants : Prop :=
  ∀ c : Cfg,
    let s := State.resetWith c
    BusyInv s ∧ SettledInv s ∧ PhaseInv s ∧ RwInv s ∧ ShadowInv s ∧ FaultInv s

/-- R35: nothing removes or reorders an entry of TRACE until a reset. -/
def Obligations.TraceOnlyGrows : Prop :=
  ∀ s t : State, s.noReset = true → step s = .next t → s.trace <+: t.trace

/-- R214, R30: FAULT keeps the first cause until a reset. -/
def Obligations.FirstFaultIsKept : Prop :=
  ∀ s t : State, s.noReset = true → s.fault.v = true → step s = .next t → t.fault = s.fault

/-- R141: of all instructions, only INIT and the flag requests write SHADOW. -/
def Obligations.OnlyFlagAndInitWriteShadow : Prop :=
  ∀ (i : Instr) (s t : State), exec i s = .next t → t.shadow ≠ s.shadow →
    i = .init ∨ (∃ on, i = .setDisplay on) ∨ (∃ on, i = .setCursor on) ∨ (∃ on, i = .setBlink on) ∨
      (∃ a b, i = .setEntryMode a b) ∨ (∃ c b e, i = .setFlag c b e)

/-- R28, R18: a request presented and left to run event by event reaches, after exactly as many steps as it has events,
the state that running it whole reaches (both granularities: log 2). -/
def Obligations.EventStepsEqualTheWholeRequest : Prop :=
  ∀ (i : Instr) (s t u : State), s.acts = [] → s.todo = [] →
    exec i s = .next t → presentInstr i s = .next u →
    Host.Core.run Sys2Proof.core (t.trace.length - s.trace.length) u = .next t

/-- R28: while the host makes no move, each step of a busy block emits exactly one event. What is left of
a request is the model's own record (log 2); that SEQ.POS keeps its count where the step is the request's last and the block
is idle after it is the model's inference (log 21). -/
def Obligations.OneEventPerStep : Prop :=
  ∀ s : State, s.cfg.legal = true → SettledInv s → RwInv s → s.acts = [] → s.busy = true →
    ∃ t e, step s = .next t ∧ t.trace = s.trace ++ [e] ∧ t.pos = s.pos + 1

/-! Encodings and the step -/

/-- R71 to R78: decoding the encoding of a well-formed instruction gives it back, with every operand. -/
def Obligations.DecodeInvertsEncode : Prop :=
  ∀ i : Instr, i.wf = true → decode (encode i) = .ok i

/-- R76, R78, R82: every controller word but 0x000 is in exactly one row of the table, and encodes back. That 0x000 is refused,
although R84 calls every byte a valid instruction, is the model's choice (log 25). -/
def Obligations.EveryWordIsOneRow : Prop :=
  (∀ w : Word10, w ≠ 0#10 → ∃ i, i.wf = true ∧ decode (.word w) = .ok i ∧ encode i = .word w) ∧
  decode (.word 0#10) = .error .noSuchWord

/-- R72 to R74: what decodes as a request is well formed and has the code of its first byte; a request of the table
encodes back to the very bytes, a reserved code to itself alone. The byte frame is the model's choice (log 1). -/
def Obligations.DecodedRequestsEncodeBack : Prop :=
  ∀ (code : Byte) (ops : List Byte) (i : Instr), decode (.request (code :: ops)) = .ok i →
    i.wf = true ∧ requestCode i = some code ∧
    (code.toNat ≤ 0x0D → encode i = .request (code :: ops)) ∧
    (0x0D < code.toNat → encode i = .request [code])

/-- Words written out from the encodings of R72, R77 and R78 (the request frame: log 1). -/
def Obligations.EncodingExamples : Prop :=
  decode (.request [0x04#8, 0x02#8, 0x05#8]) = .ok (.goto 2#8 5#8) ∧
  decode (.request [0x0D#8, 0x10#8, 0x0C#8, 0x01#8]) = .ok (.setFlag 0x10#8 0x0C#8 true) ∧
  decode (.request [0x0F#8]) = .ok (.reserved0E0F 0x0F#8) ∧
  decode (.word 0b0000101100#10) = .ok (.hdFunctionSet false true true 0#2) ∧
  decode (.word 0b0011100111#10) = .ok (.hdSetDdram 0x67#7) ∧
  decode (.word 0b1001000001#10) = .ok (.hdWriteData 0x41#8) ∧
  decode (.nibble 0b000010#6) = .ok .loneNibble

/-- A step runs the request whose bytes the host presents (R71, R66); bytes that are no request are refused (R73).
Host moves as data are the model's own (log 3). -/
def Obligations.StepRunsTheRequestPresented : Prop :=
  ∀ (s : State) (f : List Byte) (rest : List HostAct), s.cfg.legal = true → s.acts = .call f :: rest →
    (∀ i, decode (.request f) = .ok i → step s = exec i { s with acts := rest }) ∧
    (∀ e, decode (.request f) = .error e → step s = .refused (.notPresentable e))

/-- A step that lets one transfer pass sends the output word that stands next as the row of the table it is, and then does
the register writes before the next event; so does it with the lone nibble (logs 2, 3, 9). -/
def Obligations.StepRunsTheWordInFlight : Prop :=
  ∀ (s : State) (r : List Op) (rest : List HostAct), s.cfg.legal = true → s.busy = true →
    s.acts = .transfer :: rest →
    (∀ w i, s.todo = .word w :: r → decode (.word w) = .ok i →
      step s = andSettle r (exec i { s with acts := rest, todo := r })) ∧
    (s.todo = .lone :: r → step s = andSettle r (exec .loneNibble { s with acts := rest, todo := r }))

/-- An opcode-table row of 8 bits placed by `withFetchWord` is run by the next step as the instruction the decoder reads
(log 8). -/
def Obligations.PlacedRequestRuns : Prop :=
  ∀ (s : State) (w : Nat) (i : Instr), s.cfg.legal = true → decodeTableWord 8 w = some i →
    step (s.withFetchWord 8 w) = exec i s

/-! Addresses, flags, durations, the host -/

/-- R180: with legal geometry every address is at most 0x67, and different positions have different addresses. -/
def Obligations.AddressesAreBoundedAndDisjoint : Prop :=
  ∀ (c : Cfg) (row col row' col' : Nat), c.legal = true →
    1 ≤ row → row ≤ c.pLines → 1 ≤ col → col ≤ c.pCols →
    1 ≤ row' → row' ≤ c.pLines → 1 ≤ col' → col' ≤ c.pCols →
    toAddress row col = address row col ∧ toAddress row col ≤ 0x67 ∧
    (toAddress row col = toAddress row' col' → row = row' ∧ col = col')

/-- R132: after SET_FLAG every bit of the class's slot outside `bits` is as before, and so is every other slot. -/
def Obligations.SetFlagPerturbsNothingElse : Prop :=
  ∀ (s t : State) (cls bits : Byte) (en : Bool) (i : InstrClass) (v : Byte), s.Ready → slotOf s.cfg.hd cls = some i →
    s.shadow.get i = some v → exec (.setFlag cls bits en) s = .next t →
    (∀ j, j ≠ i → t.shadow.get j = s.shadow.get j) ∧
    (∀ k, bits.getLsbD k = false → (t.shadow.get i).map (·.getLsbD k) = some (v.getLsbD k))

/-- R133: enable, disable, enable leaves SHADOW as one enable does; disable and enable of a flag that was set restores it. -/
def Obligations.ToggleLaws : Prop :=
  ∀ (s : State) (i : InstrClass) (bits : Byte) (v : Byte), s.Ready → i.isToggle = true →
    bits &&& ~~~(i.mask s.cfg.hd) = 0#8 → (i = .functionSet → bits &&& s.cfg.hd.fsDl = 0#8) →
    s.shadow.get i = some v →
    let on := Instr.setFlag (i.opcode s.cfg.hd) bits true
    let off := Instr.setFlag (i.opcode s.cfg.hd) bits false
    ∃ a b c d e, exec on s = .next a ∧ exec off a = .next b ∧ exec on b = .next c ∧ c.shadow = a.shadow ∧
      exec off s = .next d ∧ exec on d = .next e ∧ (e.shadow = s.shadow ↔ v &&& bits = bits)

/-- R254: the lower bounds of the requests' durations. -/
def Obligations.RequestDurations : Prop :=
  ∀ (s : State) (op b : Byte) (bs : List Byte) (index : Byte) (pattern : List Byte), s.Ready →
    let c := s.cfg
    (op ∉ c.pLongOps → ∃ t es, exec (.sendCmd op) s = .next t ∧ t.trace = s.trace ++ es ∧
      lowerBound c es = c.tAs + 4 * c.tPulse + c.tExec) ∧
    (∃ t es, exec .clear s = .next t ∧ t.trace = s.trace ++ es ∧
      lowerBound c es = c.tAs + 4 * c.tPulse + c.tLong) ∧
    (∃ t es, exec (.sendData b) s = .next t ∧ t.trace = s.trace ++ es ∧
      lowerBound c es = c.tAs + 4 * c.tPulse + c.tExec) ∧
    (∃ t es, exec (.writeString bs) s = .next t ∧ t.trace = s.trace ++ es ∧
      lowerBound c es = bs.length * (c.tAs + 4 * c.tPulse + c.tExec)) ∧
    (index.toNat ≤ 7 → pattern.length = 8 → c.hd.setCgram ||| index <<< 3 ∉ c.pLongOps →
      ∃ t es, exec (.defChar index pattern) s = .next t ∧ t.trace = s.trace ++ es ∧
        lowerBound c es = 9 * (c.tAs + 4 * c.tPulse + c.tExec))

/-- R184, R247, R53: after DEF_CHAR the next data write goes to CGRAM, and after GOTO, CLEAR or HOME to DDRAM, whatever was
addressed before. That CLEAR and HOME select DDRAM is the spec's general knowledge, and a table in which their byte is itself
a Set-CGRAM-Address command is left out of those two clauses (log 17). The view takes every command as read in 4-bit pairs (log
26). -/
def Obligations.DefCharLeavesCgramAddressed : Prop :=
  ∀ (s : State) (l : Levels) (cur : Option Space) (index row col : Byte) (pattern : List Byte), s.Ready →
    let leaves : Instr → Space → Prop := fun i space =>
      ∃ t es, exec i s = .next t ∧ t.trace = s.trace ++ es ∧ dataSpace s.cfg.hd cur (xferFrom l [] es) = some space
    (index.toNat ≤ 7 → pattern.length = 8 → leaves (.defChar index pattern) .cgram) ∧
    (1 ≤ row.toNat → row.toNat ≤ s.cfg.pLines → 1 ≤ col.toNat → col.toNat ≤ s.cfg.pCols → leaves (.goto row col) .ddram) ∧
    (s.cfg.hd.clear.toNat / 0x40 ≠ 1 → leaves .clear .ddram) ∧
    (s.cfg.hd.home.toNat / 0x40 ≠ 1 → leaves .home .ddram)

/-- R228: the host may drive its own port bits and nothing of the block changes; it has no move into the data field (logs 3,
19). -/
def Obligations.HostDrivesOnlyItsPortBits : Prop :=
  ∀ (s : State) (i : Nat) (b : Bool) (rest : List HostAct), s.cfg.legal = true → s.acts = .portWrite i b :: rest →
    (i < s.port.length → i < s.cfg.pDataShift ∨ s.cfg.pDataShift + 4 ≤ i →
      step s = .next { s with acts := rest, port := s.port.set i (some b) }) ∧
    (s.cfg.pDataShift ≤ i → i < s.cfg.pDataShift + 4 → step s = .refused .hostDataFieldWrite)
end

