-- ==== Sys2Proof/Laws/State.lean ====
section
/-! SUPPORT. One lemma per field per update of State, so that no later proof unfolds a record update. -/

namespace Sys2Proof.Machine

/-! `State.begin` (R212) -/

@[simp] theorem State.begin_cfg (s : State) (code : Byte) : (s.begin code).cfg = s.cfg := rfl
@[simp] theorem State.begin_shadow (s : State) (code : Byte) : (s.begin code).shadow = s.shadow := rfl
@[simp] theorem State.begin_phase (s : State) (code : Byte) : (s.begin code).phase = s.phase := rfl
@[simp] theorem State.begin_active (s : State) (code : Byte) : (s.begin code).active = some code := rfl
@[simp] theorem State.begin_pos (s : State) (code : Byte) : (s.begin code).pos = 0 := rfl
@[simp] theorem State.begin_busy (s : State) (code : Byte) : (s.begin code).busy = true := rfl
@[simp] theorem State.begin_fault (s : State) (code : Byte) : (s.begin code).fault = s.fault := rfl
@[simp] theorem State.begin_rs (s : State) (code : Byte) : (s.begin code).rs = s.rs := rfl
@[simp] theorem State.begin_rw (s : State) (code : Byte) : (s.begin code).rw = s.rw := rfl
@[simp] theorem State.begin_en (s : State) (code : Byte) : (s.begin code).en = s.en := rfl
@[simp] theorem State.begin_bl (s : State) (code : Byte) : (s.begin code).bl = s.bl := rfl
@[simp] theorem State.begin_dbus (s : State) (code : Byte) : (s.begin code).dbus = s.dbus := rfl
@[simp] theorem State.begin_dir (s : State) (code : Byte) : (s.begin code).dir = s.dir := rfl
@[simp] theorem State.begin_port (s : State) (code : Byte) : (s.begin code).port = s.port := rfl
@[simp] theorem State.begin_trace (s : State) (code : Byte) : (s.begin code).trace = s.trace := rfl
@[simp] theorem State.begin_todo (s : State) (code : Byte) : (s.begin code).todo = s.todo := rfl
@[simp] theorem State.begin_acts (s : State) (code : Byte) : (s.begin code).acts = s.acts := rfl

/-! `State.finish` (R212) -/

@[simp] theorem State.finish_cfg (s : State) : s.finish.cfg = s.cfg := rfl
@[simp] theorem State.finish_shadow (s : State) : s.finish.shadow = s.shadow := rfl
@[simp] theorem State.finish_phase (s : State) : s.finish.phase = s.phase := rfl
@[simp] theorem State.finish_active (s : State) : s.finish.active = none := rfl
@[simp] theorem State.finish_pos (s : State) : s.finish.pos = s.pos := rfl
@[simp] theorem State.finish_busy (s : State) : s.finish.busy = false := rfl
@[simp] theorem State.finish_fault (s : State) : s.finish.fault = s.fault := rfl
@[simp] theorem State.finish_rs (s : State) : s.finish.rs = s.rs := rfl
@[simp] theorem State.finish_rw (s : State) : s.finish.rw = s.rw := rfl
@[simp] theorem State.finish_en (s : State) : s.finish.en = s.en := rfl
@[simp] theorem State.finish_bl (s : State) : s.finish.bl = s.bl := rfl
@[simp] theorem State.finish_dbus (s : State) : s.finish.dbus = s.dbus := rfl
@[simp] theorem State.finish_dir (s : State) : s.finish.dir = s.dir := rfl
@[simp] theorem State.finish_port (s : State) : s.finish.port = s.port := rfl
@[simp] theorem State.finish_trace (s : State) : s.finish.trace = s.trace := rfl
@[simp] theorem State.finish_todo (s : State) : s.finish.todo = s.todo := rfl
@[simp] theorem State.finish_acts (s : State) : s.finish.acts = s.acts := rfl

/-! `State.raise` (R213): only FAULT -/

@[simp] theorem State.raise_cfg (s : State) (c : Cause) (code : Byte) : (s.raise c code).cfg = s.cfg := by
  unfold State.raise; split <;> rfl
@[simp] theorem State.raise_shadow (s : State) (c : Cause) (code : Byte) : (s.raise c code).shadow = s.shadow := by
  unfold State.raise; split <;> rfl
@[simp] theorem State.raise_phase (s : State) (c : Cause) (code : Byte) : (s.raise c code).phase = s.phase := by
  unfold State.raise; split <;> rfl
@[simp] theorem State.raise_active (s : State) (c : Cause) (code : Byte) : (s.raise c code).active = s.active := by
  unfold State.raise; split <;> rfl
@[simp] theorem State.raise_pos (s : State) (c : Cause) (code : Byte) : (s.raise c code).pos = s.pos := by
  unfold State.raise; split <;> rfl
@[simp] theorem State.raise_busy (s : State) (c : Cause) (code : Byte) : (s.raise c code).busy = s.busy := by
  unfold State.raise; split <;> rfl
theorem State.raise_fault (s : State) (c : Cause) (code : Byte) :
    (s.raise c code).fault = if s.fault.v then s.fault else ⟨true, c.code, code⟩ := by
  unfold State.raise; split <;> rfl
@[simp] theorem State.raise_rs (s : State) (c : Cause) (code : Byte) : (s.raise c code).rs = s.rs := by
  unfold State.raise; split <;> rfl
@[simp] theorem State.raise_rw (s : State) (c : Cause) (code : Byte) : (s.raise c code).rw = s.rw := by
  unfold State.raise; split <;> rfl
@[simp] theorem State.raise_en (s : State) (c : Cause) (code : Byte) : (s.raise c code).en = s.en := by
  unfold State.raise; split <;> rfl
@[simp] theorem State.raise_bl (s : State) (c : Cause) (code : Byte) : (s.raise c code).bl = s.bl := by
  unfold State.raise; split <;> rfl
@[simp] theorem State.raise_dbus (s : State) (c : Cause) (code : Byte) : (s.raise c code).dbus = s.dbus := by
  unfold State.raise; split <;> rfl
@[simp] theorem State.raise_dir (s : State) (c : Cause) (code : Byte) : (s.raise c code).dir = s.dir := by
  unfold State.raise; split <;> rfl
@[simp] theorem State.raise_port (s : State) (c : Cause) (code : Byte) : (s.raise c code).port = s.port := by
  unfold State.raise; split <;> rfl
@[simp] theorem State.raise_trace (s : State) (c : Cause) (code : Byte) : (s.raise c code).trace = s.trace := by
  unfold State.raise; split <;> rfl
@[simp] theorem State.raise_todo (s : State) (c : Cause) (code : Byte) : (s.raise c code).todo = s.todo := by
  unfold State.raise; split <;> rfl
@[simp] theorem State.raise_acts (s : State) (c : Cause) (code : Byte) : (s.raise c code).acts = s.acts := by
  unfold State.raise; split <;> rfl

/-! `State.drive` (R100): what no event drives, and what each one does -/

@[simp] theorem State.drive_cfg (s : State) (e : Event) : (s.drive e).cfg = s.cfg := by
  cases e with
  | set l b => cases l <;> rfl
  | dir | dbus | wait => rfl
@[simp] theorem State.drive_shadow (s : State) (e : Event) : (s.drive e).shadow = s.shadow := by
  cases e with
  | set l b => cases l <;> rfl
  | dir | dbus | wait => rfl
@[simp] theorem State.drive_phase (s : State) (e : Event) : (s.drive e).phase = s.phase := by
  cases e with
  | set l b => cases l <;> rfl
  | dir | dbus | wait => rfl
@[simp] theorem State.drive_active (s : State) (e : Event) : (s.drive e).active = s.active := by
  cases e with
  | set l b => cases l <;> rfl
  | dir | dbus | wait => rfl
@[simp] theorem State.drive_pos (s : State) (e : Event) : (s.drive e).pos = s.pos := by
  cases e with
  | set l b => cases l <;> rfl
  | dir | dbus | wait => rfl
@[simp] theorem State.drive_busy (s : State) (e : Event) : (s.drive e).busy = s.busy := by
  cases e with
  | set l b => cases l <;> rfl
  | dir | dbus | wait => rfl
@[simp] theorem State.drive_fault (s : State) (e : Event) : (s.drive e).fault = s.fault := by
  cases e with
  | set l b => cases l <;> rfl
  | dir | dbus | wait => rfl
@[simp] theorem State.drive_trace (s : State) (e : Event) : (s.drive e).trace = s.trace := by
  cases e with
  | set l b => cases l <;> rfl
  | dir | dbus | wait => rfl
@[simp] theorem State.drive_todo (s : State) (e : Event) : (s.drive e).todo = s.todo := by
  cases e with
  | set l b => cases l <;> rfl
  | dir | dbus | wait => rfl
@[simp] theorem State.drive_acts (s : State) (e : Event) : (s.drive e).acts = s.acts := by
  cases e with
  | set l b => cases l <;> rfl
  | dir | dbus | wait => rfl

/-! `State.emit` (R17, R100) -/

@[simp] theorem State.emit_cfg (s : State) (e : Event) : (s.emit e).cfg = s.cfg := by simp [State.emit]
@[simp] theorem State.emit_shadow (s : State) (e : Event) : (s.emit e).shadow = s.shadow := by simp [State.emit]
@[simp] theorem State.emit_phase (s : State) (e : Event) : (s.emit e).phase = s.phase := by simp [State.emit]
@[simp] theorem State.emit_active (s : State) (e : Event) : (s.emit e).active = s.active := by simp [State.emit]
@[simp] theorem State.emit_pos (s : State) (e : Event) : (s.emit e).pos = s.pos + 1 := by simp [State.emit]
@[simp] theorem State.emit_busy (s : State) (e : Event) : (s.emit e).busy = s.busy := by simp [State.emit]
@[simp] theorem State.emit_fault (s : State) (e : Event) : (s.emit e).fault = s.fault := by simp [State.emit]
@[simp] theorem State.emit_trace (s : State) (e : Event) : (s.emit e).trace = s.trace ++ [e] := by simp [State.emit]
@[simp] theorem State.emit_todo (s : State) (e : Event) : (s.emit e).todo = s.todo := by simp [State.emit]
@[simp] theorem State.emit_acts (s : State) (e : Event) : (s.emit e).acts = s.acts := by simp [State.emit]
@[simp] theorem State.emit_dir_rs (s : State) (l : List Line) : (s.emit (.dir l)).rs = s.rs := rfl
@[simp] theorem State.emit_dir_rw (s : State) (l : List Line) : (s.emit (.dir l)).rw = s.rw := rfl
@[simp] theorem State.emit_dir_en (s : State) (l : List Line) : (s.emit (.dir l)).en = s.en := rfl
@[simp] theorem State.emit_dir_bl (s : State) (l : List Line) : (s.emit (.dir l)).bl = s.bl := rfl
@[simp] theorem State.emit_dir_dbus (s : State) (l : List Line) : (s.emit (.dir l)).dbus = s.dbus := rfl
@[simp] theorem State.emit_dir_dir (s : State) (l : List Line) : (s.emit (.dir l)).dir = l := rfl
@[simp] theorem State.emit_dir_port (s : State) (l : List Line) : (s.emit (.dir l)).port = s.port := rfl
@[simp] theorem State.emit_rs_rs (s : State) (b : Bool) : (s.emit (.set .rs b)).rs = some b := rfl
@[simp] theorem State.emit_rs_rw (s : State) (b : Bool) : (s.emit (.set .rs b)).rw = s.rw := rfl
@[simp] theorem State.emit_rs_en (s : State) (b : Bool) : (s.emit (.set .rs b)).en = s.en := rfl
@[simp] theorem State.emit_rs_bl (s : State) (b : Bool) : (s.emit (.set .rs b)).bl = s.bl := rfl
@[simp] theorem State.emit_rs_dbus (s : State) (b : Bool) : (s.emit (.set .rs b)).dbus = s.dbus := rfl
@[simp] theorem State.emit_rs_dir (s : State) (b : Bool) : (s.emit (.set .rs b)).dir = s.dir := rfl
@[simp] theorem State.emit_rs_port (s : State) (b : Bool) : (s.emit (.set .rs b)).port = s.port := rfl
@[simp] theorem State.emit_rw_rs (s : State) (b : Bool) : (s.emit (.set .rw b)).rs = s.rs := rfl
@[simp] theorem State.emit_rw_rw (s : State) (b : Bool) : (s.emit (.set .rw b)).rw = some b := rfl
@[simp] theorem State.emit_rw_en (s : State) (b : Bool) : (s.emit (.set .rw b)).en = s.en := rfl
@[simp] theorem State.emit_rw_bl (s : State) (b : Bool) : (s.emit (.set .rw b)).bl = s.bl := rfl
@[simp] theorem State.emit_rw_dbus (s : State) (b : Bool) : (s.emit (.set .rw b)).dbus = s.dbus := rfl
@[simp] theorem State.emit_rw_dir (s : State) (b : Bool) : (s.emit (.set .rw b)).dir = s.dir := rfl
@[simp] theorem State.emit_rw_port (s : State) (b : Bool) : (s.emit (.set .rw b)).port = s.port := rfl
@[simp] theorem State.emit_en_rs (s : State) (b : Bool) : (s.emit (.set .en b)).rs = s.rs := rfl
@[simp] theorem State.emit_en_rw (s : State) (b : Bool) : (s.emit (.set .en b)).rw = s.rw := rfl
@[simp] theorem State.emit_en_en (s : State) (b : Bool) : (s.emit (.set .en b)).en = some b := rfl
@[simp] theorem State.emit_en_bl (s : State) (b : Bool) : (s.emit (.set .en b)).bl = s.bl := rfl
@[simp] theorem State.emit_en_dbus (s : State) (b : Bool) : (s.emit (.set .en b)).dbus = s.dbus := rfl
@[simp] theorem State.emit_en_dir (s : State) (b : Bool) : (s.emit (.set .en b)).dir = s.dir := rfl
@[simp] theorem State.emit_en_port (s : State) (b : Bool) : (s.emit (.set .en b)).port = s.port := rfl
@[simp] theorem State.emit_bl_rs (s : State) (b : Bool) : (s.emit (.set .bl b)).rs = s.rs := rfl
@[simp] theorem State.emit_bl_rw (s : State) (b : Bool) : (s.emit (.set .bl b)).rw = s.rw := rfl
@[simp] theorem State.emit_bl_en (s : State) (b : Bool) : (s.emit (.set .bl b)).en = s.en := rfl
@[simp] theorem State.emit_bl_bl (s : State) (b : Bool) : (s.emit (.set .bl b)).bl = some b := rfl
@[simp] theorem State.emit_bl_dbus (s : State) (b : Bool) : (s.emit (.set .bl b)).dbus = s.dbus := rfl
@[simp] theorem State.emit_bl_dir (s : State) (b : Bool) : (s.emit (.set .bl b)).dir = s.dir := rfl
@[simp] theorem State.emit_bl_port (s : State) (b : Bool) : (s.emit (.set .bl b)).port = s.port := rfl
@[simp] theorem State.emit_dbus_rs (s : State) (v : Nibble) : (s.emit (.dbus v)).rs = s.rs := rfl
@[simp] theorem State.emit_dbus_rw (s : State) (v : Nibble) : (s.emit (.dbus v)).rw = s.rw := rfl
@[simp] theorem State.emit_dbus_en (s : State) (v : Nibble) : (s.emit (.dbus v)).en = s.en := rfl
@[simp] theorem State.emit_dbus_bl (s : State) (v : Nibble) : (s.emit (.dbus v)).bl = s.bl := rfl
@[simp] theorem State.emit_dbus_dbus (s : State) (v : Nibble) : (s.emit (.dbus v)).dbus = some v := rfl
@[simp] theorem State.emit_dbus_dir (s : State) (v : Nibble) : (s.emit (.dbus v)).dir = s.dir := rfl
@[simp] theorem State.emit_dbus_port (s : State) (v : Nibble) : (s.emit (.dbus v)).port = drivePort s.cfg v s.port := rfl
@[simp] theorem State.emit_wait_rs (s : State) (k : Wait) : (s.emit (.wait k)).rs = s.rs := rfl
@[simp] theorem State.emit_wait_rw (s : State) (k : Wait) : (s.emit (.wait k)).rw = s.rw := rfl
@[simp] theorem State.emit_wait_en (s : State) (k : Wait) : (s.emit (.wait k)).en = s.en := rfl
@[simp] theorem State.emit_wait_bl (s : State) (k : Wait) : (s.emit (.wait k)).bl = s.bl := rfl
@[simp] theorem State.emit_wait_dbus (s : State) (k : Wait) : (s.emit (.wait k)).dbus = s.dbus := rfl
@[simp] theorem State.emit_wait_dir (s : State) (k : Wait) : (s.emit (.wait k)).dir = s.dir := rfl
@[simp] theorem State.emit_wait_port (s : State) (k : Wait) : (s.emit (.wait k)).port = s.port := rfl

/-! `State.emitAll` (R62) -/

@[simp] theorem State.emitAll_nil (s : State) : s.emitAll [] = s := rfl
@[simp] theorem State.emitAll_cons (s : State) (e : Event) (es : List Event) : s.emitAll (e :: es) = (s.emit e).emitAll es := rfl
theorem State.emitAll_append (s : State) (es fs : List Event) :
    s.emitAll (es ++ fs) = (s.emitAll es).emitAll fs := by
  induction es generalizing s with
  | nil => rfl
  | cons e es ih => exact ih (s.emit e)
@[simp] theorem State.emitAll_cfg (s : State) (es : List Event) : (s.emitAll es).cfg = s.cfg := by
  induction es generalizing s with
  | nil => rfl
  | cons e es ih => simp [ih]
@[simp] theorem State.emitAll_shadow (s : State) (es : List Event) : (s.emitAll es).shadow = s.shadow := by
  induction es generalizing s with
  | nil => rfl
  | cons e es ih => simp [ih]
@[simp] theorem State.emitAll_phase (s : State) (es : List Event) : (s.emitAll es).phase = s.phase := by
  induction es generalizing s with
  | nil => rfl
  | cons e es ih => simp [ih]
@[simp] theorem State.emitAll_active (s : State) (es : List Event) : (s.emitAll es).active = s.active := by
  induction es generalizing s with
  | nil => rfl
  | cons e es ih => simp [ih]
@[simp] theorem State.emitAll_busy (s : State) (es : List Event) : (s.emitAll es).busy = s.busy := by
  induction es generalizing s with
  | nil => rfl
  | cons e es ih => simp [ih]
@[simp] theorem State.emitAll_fault (s : State) (es : List Event) : (s.emitAll es).fault = s.fault := by
  induction es generalizing s with
  | nil => rfl
  | cons e es ih => simp [ih]
@[simp] theorem State.emitAll_todo (s : State) (es : List Event) : (s.emitAll es).todo = s.todo := by
  induction es generalizing s with
  | nil => rfl
  | cons e es ih => simp [ih]
@[simp] theorem State.emitAll_acts (s : State) (es : List Event) : (s.emitAll es).acts = s.acts := by
  induction es generalizing s with
  | nil => rfl
  | cons e es ih => simp [ih]
@[simp] theorem State.emitAll_trace (s : State) (es : List Event) : (s.emitAll es).trace = s.trace ++ es := by
  induction es generalizing s with
  | nil => simp
  | cons e es ih => simp [ih]
@[simp] theorem State.emitAll_pos (s : State) (es : List Event) : (s.emitAll es).pos = s.pos + es.length := by
  induction es generalizing s with
  | nil => rfl
  | cons e es ih => simp only [State.emitAll_cons, ih, State.emit_pos, List.length_cons]; omega

/-! SHADOW (R22, R132) -/

@[simp] theorem Shadow.get_set_self (sh : Shadow) (v : Byte) (i : InstrClass) : (sh.set v i).get i = some v := by
  cases i <;> rfl

theorem Shadow.get_set_ne (sh : Shadow) (v : Byte) {i j : InstrClass} (h : j ≠ i) : (sh.set v i).get j = sh.get j := by
  cases i <;> cases j <;> first | rfl | exact absurd rfl h

@[simp] theorem Shadow.get_zeroed (i : InstrClass) : Shadow.zeroed.get i = some 0#8 := by cases i <;> rfl

@[simp] theorem Shadow.get_unwritten (i : InstrClass) : Shadow.unwritten.get i = none := by cases i <;> rfl

theorem Shadow.ext_get {a b : Shadow} (h : ∀ i, a.get i = b.get i) : a = b := by
  cases a; cases b
  have h0 := h .entryMode
  have h1 := h .displayControl
  have h2 := h .cursorDisplayShift
  have h3 := h .functionSet
  have h4 := h .setCgramAddr
  have h5 := h .setDdramAddr
  simp_all [Shadow.get]

end Sys2Proof.Machine
end

