-- ==== Sys2Proof/Laws/Ops.lean ====
section
/-! SUPPORT. One lemma per shared operation that says everything it can do: the port (R33), the bus procedures (R102 to R108),
acceptance (R212), a request run whole or started, a word sent, and the step. -/

namespace Sys2Proof.Machine

/-! The port (R33) -/

@[simp] theorem drivePort_length (c : Cfg) (v : Nibble) (p : List (Option Bool)) :
    (drivePort c v p).length = p.length := by simp [drivePort]

/-- A bit of the port after `DBUS(v)` (R33). -/
theorem drivePort_getElem? (c : Cfg) (v : Nibble) (p : List (Option Bool)) (i : Nat) :
    (drivePort c v p)[i]? =
      p[i]?.map fun b => if c.pDataMask.testBit i then some (v.getLsbD (i - c.pDataShift)) else b := by
  simp [drivePort, List.getElem?_mapIdx]

/-- The last `DBUS` decides the data field. -/
@[simp] theorem drivePort_drivePort (c : Cfg) (v w : Nibble) (p : List (Option Bool)) :
    drivePort c v (drivePort c w p) = drivePort c v p := by
  apply List.ext_getElem?
  intro i
  simp only [drivePort_getElem?]
  cases p[i]? <;> simp
  split <;> rfl

/-! The bus procedures: what the lines are afterwards -/

/-- `NIB(v)` (R102): EN low, DBUS at `v`. -/
theorem emitAll_nibEvents (s : State) (v : Nibble) :
    s.emitAll (nibEvents v) =
      { s with trace := s.trace ++ nibEvents v, pos := s.pos + 6, en := some false, dbus := some v,
               port := drivePort s.cfg v s.port } := by
  simp [nibEvents, State.emitAll, State.emit, State.drive, drivePort_drivePort]

@[simp] theorem nibEvents_length (v : Nibble) : (nibEvents v).length = 6 := rfl

@[simp] theorem byteEvents_length (b : Byte) : (byteEvents b).length = 12 := rfl

@[simp] theorem cmdEvents_length (c : Cfg) (op : Byte) : (cmdEvents c op).length = 16 := rfl

@[simp] theorem dataEvents_length (b : Byte) : (dataEvents b).length = 16 := rfl

@[simp] theorem loneEvents_length : loneEvents.length = 10 := rfl

/-- `CMD(op)` (R106): RS, RW and EN low, DBUS at the low nibble. -/
theorem emitAll_cmdEvents (s : State) (op : Byte) :
    s.emitAll (cmdEvents s.cfg op) =
      { s with trace := s.trace ++ cmdEvents s.cfg op, pos := s.pos + 16, rs := some false, rw := some false,
               en := some false, dbus := some (loNibble op), port := drivePort s.cfg (loNibble op) s.port } := by
  simp [cmdEvents, byteEvents, nibEvents, State.emitAll, State.emit, State.drive, drivePort_drivePort]

/-- `DATA(b)` (R108): RS high, RW and EN low, DBUS at the low nibble. -/
theorem emitAll_dataEvents (s : State) (b : Byte) :
    s.emitAll (dataEvents b) =
      { s with trace := s.trace ++ dataEvents b, pos := s.pos + 16, rs := some true, rw := some false,
               en := some false, dbus := some (loNibble b), port := drivePort s.cfg (loNibble b) s.port } := by
  simp [dataEvents, byteEvents, nibEvents, State.emitAll, State.emit, State.drive, drivePort_drivePort]

/-- The lone nibble (R164). -/
theorem emitAll_loneEvents (s : State) :
    s.emitAll loneEvents =
      { s with trace := s.trace ++ loneEvents, pos := s.pos + 10, rs := some false, rw := some false,
               en := some false, dbus := some 2#4, port := drivePort s.cfg 2#4 s.port } := by
  simp [loneEvents, nibEvents, State.emitAll, State.emit, State.drive, drivePort_drivePort]

/-! Controller words (R76) -/

@[simp] theorem wordRs_cmdWord (op : Byte) : wordRs (cmdWord op) = false := by
  simp [wordRs, cmdWord]

@[simp] theorem wordRw_cmdWord (op : Byte) : wordRw (cmdWord op) = false := by
  simp [wordRw, cmdWord]

@[simp] theorem wordDb_cmdWord (op : Byte) : wordDb (cmdWord op) = op := by
  simp [wordDb, cmdWord]

@[simp] theorem wordRs_dataWord (b : Byte) : wordRs (dataWord b) = true := by
  simp [wordRs, dataWord]

@[simp] theorem wordRw_dataWord (b : Byte) : wordRw (dataWord b) = false := by
  simp [wordRw, dataWord]

@[simp] theorem wordDb_dataWord (b : Byte) : wordDb (dataWord b) = b := by
  ext i hi
  simp [wordDb, dataWord]

@[simp] theorem wordEvents_cmdWord (c : Cfg) (op : Byte) : wordEvents c (cmdWord op) = cmdEvents c op := by
  simp [wordEvents]

@[simp] theorem wordEvents_dataWord (c : Cfg) (b : Byte) : wordEvents c (dataWord b) = dataEvents b := by
  simp [wordEvents]

/-! Faults and acceptance (R212, R213) -/

/-- A fault of a block that has none (R213). -/
theorem raise_of_noFault {s : State} (h : s.fault.v = false) (c : Cause) (code : Byte) :
    s.raise c code = { s with fault := ⟨true, c.code, code⟩ } := by simp [State.raise, h]

/-- A halted block keeps its fault (R214). -/
theorem raise_of_fault {s : State} (h : s.fault.v = true) (c : Cause) (code : Byte) : s.raise c code = s := by
  simp [State.raise, h]

theorem flagFault_eq (s : State) (c : Cause) :
    s.flagFault c = s ∨ s.fault.v = false ∧ s.flagFault c = { s with fault := ⟨true, c.code, s.active.getD 0#8⟩ } := by
  unfold State.flagFault State.raise
  split <;> simp_all

/-- A request is accepted exactly when every check passes (R212). -/
theorem accept_eq_accepted_iff (r : Req) (s : State) :
    accept r s = .accepted ↔
      s.fault.v = false ∧ s.busy = false ∧ r.code.toNat ≤ 0x0D ∧ checkPhase r.code s.phase = none ∧ r.own s = none := by
  unfold accept
  split
  · simp_all
  · split
    · simp_all
    · split
      · simp_all
      · split
        · simp_all
        · split <;> simp_all

/-- A request is ignored exactly when the block is halted (R214). -/
theorem accept_eq_ignored_iff (r : Req) (s : State) : accept r s = .ignored ↔ s.fault.v = true := by
  unfold accept
  split
  · simp_all
  · split
    · simp_all
    · split
      · simp_all
      · split
        · simp_all
        · split <;> simp_all

/-- A request faults only in a block without a fault. -/
theorem accept_fault_noFault {r : Req} {s : State} {c : Cause} (h : accept r s = .fault c) : s.fault.v = false := by
  unfold accept at h
  split at h
  · simp at h
  · simp_all

/-- Everything a request run whole can do (R212). -/
theorem runRequest_cases (r : Req) (s : State) :
    s.cfg.legal = false ∧ runRequest r s = .refused .illegalConfig ∨
    s.cfg.legal = true ∧ s.fault.v = true ∧ runRequest r s = .next s ∨
    (∃ c, s.cfg.legal = true ∧ s.fault.v = false ∧ accept r s = .fault c ∧
      runRequest r s = .next { s with fault := ⟨true, c.code, r.code⟩ }) ∨
    s.cfg.legal = true ∧ accept r s = .accepted ∧
      runRequest r s = .next (runOps (r.body s.cfg) (s.begin r.code)).finish := by
  unfold runRequest
  cases hl : s.cfg.legal
  · simp
  · cases ha : accept r s with
    | ignored => simp [(accept_eq_ignored_iff r s).1 ha]
    | fault c =>
      have := accept_fault_noFault ha
      simp [this, raise_of_noFault this]
    | accepted => simp

/-- Everything a request presented and left in flight can do (R212, R28). -/
theorem startRequest_cases (r : Req) (s : State) :
    s.cfg.legal = false ∧ startRequest r s = .refused .illegalConfig ∨
    s.cfg.legal = true ∧ s.fault.v = true ∧ startRequest r s = .next s ∨
    (∃ c, s.cfg.legal = true ∧ s.fault.v = false ∧ accept r s = .fault c ∧
      startRequest r s = .next { s with fault := ⟨true, c.code, r.code⟩ }) ∨
    s.cfg.legal = true ∧ accept r s = .accepted ∧
      startRequest r s = .next (settle (r.body s.cfg) (s.begin r.code)) := by
  unfold startRequest
  cases hl : s.cfg.legal
  · simp
  · cases ha : accept r s with
    | ignored => simp [(accept_eq_ignored_iff r s).1 ha]
    | fault c =>
      have := accept_fault_noFault ha
      simp [this, raise_of_noFault this]
    | accepted => simp

/-- A request that every check lets pass runs whole (R212). -/
theorem runRequest_accepted {r : Req} {s : State} (hl : s.cfg.legal = true) (h : accept r s = .accepted) :
    runRequest r s = .next (runOps (r.body s.cfg) (s.begin r.code)).finish := by
  simp [runRequest, hl, h]

/-- Everything sending a word can do (R76, R82). -/
theorem sendWord_cases (w : Word10) (s : State) :
    wordRw w = true ∧ sendWord w s = .refused .neverEmitted ∨
    wordRw w = false ∧ s.cfg.legal = false ∧ sendWord w s = .refused .illegalConfig ∨
    wordRw w = false ∧ s.cfg.legal = true ∧ sendWord w s = .next (s.emitAll (wordEvents s.cfg w)) := by
  unfold sendWord
  cases wordRw w <;> cases s.cfg.legal <;> simp

/-! Running what is left of a request -/

/-- Words alone (R183, R185): their events in order. -/
theorem runOps_words (ws : List Word10) (s : State) :
    runOps (ws.map .word) s = s.emitAll (ws.flatMap (wordEvents s.cfg)) := by
  induction ws generalizing s with
  | nil => rfl
  | cons w ws ih => simp [runOps, ih, State.emitAll_append]

/-- FLAG in a request run whole (R131), when the slot can be read. -/
theorem runOps_flag {cls bits : Byte} {en : Bool} {s : State} {sh : Shadow} {byte : Byte} (r : List Op)
    (h : flagShadow s.cfg.hd s.shadow cls bits en = .ok (sh, byte)) :
    runOps (.flag cls bits en :: r) s =
      runOps r ({ s with shadow := sh }.emitAll (cmdEvents s.cfg byte)) := by
  simp [runOps, h]

@[simp] theorem runOps_cfg (ops : List Op) (s : State) : (runOps ops s).cfg = s.cfg := by
  induction ops generalizing s with
  | nil => rfl
  | cons op r ih =>
    cases op with
    | flag cls bits en =>
      unfold runOps
      split
      · simp [State.flagFault]
      · simp [ih]
    | emit e => simp [runOps, ih]
    | word w => simp [runOps, ih]
    | lone => simp [runOps, ih]
    | phase p => simp [runOps, ih]
    | zeroShadow => simp [runOps, ih]

/-- A request's events only add to TRACE (R35). -/
theorem runOps_trace (ops : List Op) (s : State) : ∃ es, (runOps ops s).trace = s.trace ++ es := by
  induction ops generalizing s with
  | nil => exact ⟨[], by simp [runOps]⟩
  | cons op r ih =>
    cases op with
    | flag cls bits en =>
      unfold runOps
      split
      · exact ⟨[], by simp [State.flagFault]⟩
      · obtain ⟨es, h⟩ := ih (State.emitAll { s with shadow := _ } (wordEvents s.cfg (cmdWord _)))
        exact ⟨_, by rw [h]; simp only [State.emitAll_trace, List.append_assoc]; rfl⟩
    | emit e =>
      obtain ⟨es, h⟩ := ih (s.emit e)
      exact ⟨e :: es, by simp [runOps, h]⟩
    | word w =>
      obtain ⟨es, h⟩ := ih (s.emitAll (wordEvents s.cfg w))
      exact ⟨wordEvents s.cfg w ++ es, by simp [runOps, h]⟩
    | lone =>
      obtain ⟨es, h⟩ := ih (s.emitAll loneEvents)
      exact ⟨loneEvents ++ es, by simp [runOps, h]⟩
    | phase p => exact ih { s with phase := p }
    | zeroShadow => exact ih { s with shadow := Shadow.zeroed }

/-! One event at a time (R28) -/

@[simp] theorem settle_cfg (ops : List Op) (s : State) : (settle ops s).cfg = s.cfg := by
  induction ops generalizing s with
  | nil => rfl
  | cons op r ih =>
    cases op with
    | flag cls bits en =>
      unfold settle
      split
      · simp [State.flagFault]
      · rfl
    | emit e => rfl
    | word w => rfl
    | lone => rfl
    | phase p => simp [settle, ih]
    | zeroShadow => simp [settle, ih]

/-- The register writes between events emit nothing (R161, R131). -/
@[simp] theorem settle_trace (ops : List Op) (s : State) : (settle ops s).trace = s.trace := by
  induction ops generalizing s with
  | nil => rfl
  | cons op r ih =>
    cases op with
    | flag cls bits en =>
      unfold settle
      split
      · simp [State.flagFault]
      · rfl
    | emit e => rfl
    | word w => rfl
    | lone => rfl
    | phase p => simp [settle, ih]
    | zeroShadow => simp [settle, ih]

@[simp] theorem settle_acts (ops : List Op) (s : State) : (settle ops s).acts = s.acts := by
  induction ops generalizing s with
  | nil => rfl
  | cons op r ih =>
    cases op with
    | flag cls bits en =>
      unfold settle
      split
      · simp [State.flagFault]
      · rfl
    | emit e => rfl
    | word w => rfl
    | lone => rfl
    | phase p => simp [settle, ih]
    | zeroShadow => simp [settle, ih]

/-! The step -/

/-- A step in which the host makes no move (R18, R28). -/
theorem step_noAct {s : State} (h : s.cfg.legal = true) (ha : s.acts = []) : step s = noAct s := by
  simp [step, h, ha]

/-- A step in which the host makes a move (R228). -/
theorem step_act {s : State} {a : HostAct} {rest : List HostAct} (h : s.cfg.legal = true) (ha : s.acts = a :: rest) :
    step s = hostAct a { s with acts := rest } := by
  simp [step, h, ha]

/-- A step that answers a next state is one of these two (R241, R228). -/
theorem step_next_cases {s t : State} (h : step s = .next t) :
    s.cfg.legal = true ∧
      (s.acts = [] ∧ noAct s = .next t ∨ ∃ a rest, s.acts = a :: rest ∧ hostAct a { s with acts := rest } = .next t) := by
  cases hl : s.cfg.legal
  · simp [step, hl] at h
  · refine ⟨rfl, ?_⟩
    cases ha : s.acts with
    | nil => exact .inl ⟨rfl, step_noAct hl ha ▸ h⟩
    | cons a rest => exact .inr ⟨a, rest, rfl, step_act hl ha ▸ h⟩

/-- A block that is not built has no step (R241). -/
theorem step_of_illegal {s : State} (h : s.cfg.legal = false) : step s = .refused .illegalConfig := by
  simp [step, h]

end Sys2Proof.Machine
end

