-- ==== Sys2Proof/Laws/PerInstr.lean ====
section
/-! SUPPORT. A law of every instruction, one lemma a constructor: what has a request code (R72, R74) is encoded as a frame of
the request port that begins with that code; what has none is an output word of the block (R70, R76, R77). -/

namespace Sys2Proof.Laws.Format

/-- A request's frame begins with its code; an output word has no request code. -/
def Statement (i : Instr) : Prop :=
  match encode i with
  | .request bytes => ∃ code, Machine.requestCode i = some code ∧ bytes.head? = some code
  | .word _ => Machine.requestCode i = none
  | .nibble _ => Machine.requestCode i = none

theorem init : Statement (.init) := ⟨_, rfl, rfl⟩
theorem sendCmd (op : Byte) : Statement (.sendCmd op) := ⟨_, rfl, rfl⟩
theorem sendData (b : Byte) : Statement (.sendData b) := ⟨_, rfl, rfl⟩
theorem writeString (s : List Byte) : Statement (.writeString s) := ⟨_, rfl, rfl⟩
theorem goto (row : Byte) (col : Byte) : Statement (.goto row col) := ⟨_, rfl, rfl⟩
theorem defChar (index : Byte) (pattern : List Byte) : Statement (.defChar index pattern) := ⟨_, rfl, rfl⟩
theorem clear : Statement (.clear) := ⟨_, rfl, rfl⟩
theorem home : Statement (.home) := ⟨_, rfl, rfl⟩
theorem setDisplay (on : Bool) : Statement (.setDisplay on) := ⟨_, rfl, rfl⟩
theorem setCursor (on : Bool) : Statement (.setCursor on) := ⟨_, rfl, rfl⟩
theorem setBlink (on : Bool) : Statement (.setBlink on) := ⟨_, rfl, rfl⟩
theorem setBacklight (on : Bool) : Statement (.setBacklight on) := ⟨_, rfl, rfl⟩
theorem setEntryMode (inc : Bool) (shift : Bool) : Statement (.setEntryMode inc shift) := ⟨_, rfl, rfl⟩
theorem setFlag (cls : Byte) (bits : Byte) (en : Bool) : Statement (.setFlag cls bits en) := ⟨_, rfl, rfl⟩
theorem reserved0E0F (code : Byte) : Statement (.reserved0E0F code) := ⟨_, rfl, rfl⟩
theorem reserved101F (code : Byte) : Statement (.reserved101F code) := ⟨_, rfl, rfl⟩
theorem reserved203F (code : Byte) : Statement (.reserved203F code) := ⟨_, rfl, rfl⟩
theorem reserved407F (code : Byte) : Statement (.reserved407F code) := ⟨_, rfl, rfl⟩
theorem reserved80FF (code : Byte) : Statement (.reserved80FF code) := ⟨_, rfl, rfl⟩
theorem hdClear : Statement (.hdClear) := rfl
theorem hdHome (x : Bool) : Statement (.hdHome x) := rfl
theorem hdEntryMode (i : Bool) (s : Bool) : Statement (.hdEntryMode i s) := rfl
theorem hdDisplayControl (d : Bool) (c : Bool) (b : Bool) : Statement (.hdDisplayControl d c b) := rfl
theorem hdShift (p : Bool) (r : Bool) (x : BitVec 2) : Statement (.hdShift p r x) := rfl
theorem hdFunctionSet (l : Bool) (n : Bool) (f : Bool) (x : BitVec 2) : Statement (.hdFunctionSet l n f x) := rfl
theorem hdSetCgram (a : BitVec 6) : Statement (.hdSetCgram a) := rfl
theorem hdSetDdram (a : BitVec 7) : Statement (.hdSetDdram a) := rfl
theorem hdWriteData (d : Byte) : Statement (.hdWriteData d) := rfl
theorem hdReadBfAddr (x : Byte) : Statement (.hdReadBfAddr x) := rfl
theorem hdReadData (x : Byte) : Statement (.hdReadData x) := rfl
theorem loneNibble : Statement (.loneNibble) := rfl

end Sys2Proof.Laws.Format
end

