-- ==== Sys2Proof/Laws/Views.lean ====
section
/-! SUPPORT. What each command does to the addressed space (R53, R184, R247), under every legal HD table, so that no proof
unfolds `spaceOf`. -/

namespace Sys2Proof.Machine

/-- A legal table's two address opcodes (R80). -/
theorem HDTable.legal_address {h : HDTable} (hl : h.legal = true) : h.setCgram = 0x40#8 ∧ h.setDdram = 0x80#8 := by
  simp only [HDTable.legal, Bool.and_eq_true, beq_iff_eq] at hl
  exact ⟨hl.1.1.1.1.1.2, hl.1.1.1.1.2⟩

/-- The space a command selects, by the value of its byte. -/
theorem spaceOf_eq {h : HDTable} (hl : h.legal = true) (op : Byte) :
    spaceOf h op =
      if 0x80 ≤ op.toNat then some .ddram
      else if 0x40 ≤ op.toNat then some .cgram
      else if isClear h op || isHome h op then some .ddram
      else none := by
  obtain ⟨hc, hd⟩ := HDTable.legal_address hl
  have hb : op.toNat < 256 := op.isLt
  have h8 : op.toNat / 128 = 1 ↔ 0x80 ≤ op.toNat := by omega
  by_cases h1 : 0x80 ≤ op.toNat
  · simp [spaceOf, isOfClass, hd, h8, h1]
  · have h4 : op.toNat / 64 = 1 ↔ 0x40 ≤ op.toNat := by omega
    simp [spaceOf, isOfClass, hc, hd, h8, h4, h1]

/-- CLEAR's byte is clear-display. -/
@[simp] theorem isClear_clear (h : HDTable) : isClear h h.clear = true := by simp [isClear]

/-- HOME's byte is return-home. -/
@[simp] theorem isHome_home (h : HDTable) : isHome h h.home = true := by simp [isHome]

/-- A command that selects a space decides it, whatever was current (R53). -/
theorem dataSpace_c {h : HDTable} {op : Byte} {space : Space} (hs : spaceOf h op = some space) (cur : Option Space)
    (k : Wait) (r : List Xfer) : dataSpace h cur (.c op k :: r) = dataSpace h (some space) r := by
  simp [dataSpace, hs]

end Sys2Proof.Machine
end

