-- ==== Sys2Proof/Tests/Slice0.lean ====
section
/-! SUPPORT. The model's own tests: ill-formed terms are refused, every row of the opcode table decodes from bits written out from
the spec, vectors of spec/95 one step each, and for every obligation with hypotheses a witness that meets them (at the
boundary of each clause's range where it has several). Expected values come from spec/95 or are worked out by hand from the
rule named. -/

namespace Sys2Proof.Tests

open Sys2Proof Sys2Proof.Machine

/-! Well-formedness: one ill-formed term for each check (R74) -/

theorem test_wf_refuses_reserved0E0F : (Instr.reserved0E0F 0x0D#8).wf = false ∧ (Instr.reserved0E0F 0x10#8).wf = false := by decide

theorem test_wf_refuses_reserved101F : (Instr.reserved101F 0x0F#8).wf = false ∧ (Instr.reserved101F 0x20#8).wf = false := by decide

theorem test_wf_refuses_reserved203F : (Instr.reserved203F 0x1F#8).wf = false ∧ (Instr.reserved203F 0x40#8).wf = false := by decide

theorem test_wf_refuses_reserved407F : (Instr.reserved407F 0x3F#8).wf = false ∧ (Instr.reserved407F 0x80#8).wf = false := by decide

theorem test_wf_refuses_reserved80FF : (Instr.reserved80FF 0x7F#8).wf = false ∧ (Instr.reserved80FF 0xFF#8).wf = true := by decide

/-! Decoding: every row of the table from bits written out -/

/-- R72, R73. -/
theorem test_decode_requests :
    decode (.request [0b00000000#8]) = .ok .init ∧
    decode (.request [0b00000001#8, 0x0F#8]) = .ok (.sendCmd 0x0F#8) ∧
    decode (.request [0b00000010#8, 0x41#8]) = .ok (.sendData 0x41#8) ∧
    decode (.request [0b00000011#8, 0x48#8, 0x69#8]) = .ok (.writeString [0x48#8, 0x69#8]) ∧
    decode (.request [0b00000100#8, 2#8, 5#8]) = .ok (.goto 2#8 5#8) ∧
    decode (.request [0b00000101#8, 3#8, 1#8, 2#8]) = .ok (.defChar 3#8 [1#8, 2#8]) ∧
    decode (.request [0b00000110#8]) = .ok .clear ∧
    decode (.request [0b00000111#8]) = .ok .home := by decide

/-- R72, R73, R75. -/
theorem test_decode_toggles :
    decode (.request [0b00001000#8, 1#8]) = .ok (.setDisplay true) ∧
    decode (.request [0b00001001#8, 0#8]) = .ok (.setCursor false) ∧
    decode (.request [0b00001010#8, 1#8]) = .ok (.setBlink true) ∧
    decode (.request [0b00001011#8, 0#8]) = .ok (.setBacklight false) ∧
    decode (.request [0b00001100#8, 0#8, 1#8]) = .ok (.setEntryMode false true) ∧
    decode (.request [0b00001101#8, 0x10#8, 0x0C#8, 1#8]) = .ok (.setFlag 0x10#8 0x0C#8 true) := by decide

/-- R74. -/
theorem test_decode_reserved :
    decode (.request [0b00001110#8]) = .ok (.reserved0E0F 0x0E#8) ∧
    decode (.request [0b00010000#8]) = .ok (.reserved101F 0x10#8) ∧
    decode (.request [0b00111111#8]) = .ok (.reserved203F 0x3F#8) ∧
    decode (.request [0b01000001#8]) = .ok (.reserved407F 0x41#8) ∧
    decode (.request [0b10000000#8]) = .ok (.reserved80FF 0x80#8) := by decide

/-- R76, R77, R78, R82. -/
theorem test_decode_words :
    decode (.word 0b0000000001#10) = .ok .hdClear ∧
    decode (.word 0b0000000010#10) = .ok (.hdHome false) ∧
    decode (.word 0b0000000110#10) = .ok (.hdEntryMode true false) ∧
    decode (.word 0b0000001110#10) = .ok (.hdDisplayControl true true false) ∧
    decode (.word 0b0000011000#10) = .ok (.hdShift true false 0#2) ∧
    decode (.word 0b0000101000#10) = .ok (.hdFunctionSet false true false 0#2) ∧
    decode (.word 0b0001011000#10) = .ok (.hdSetCgram 24#6) ∧
    decode (.word 0b0011000100#10) = .ok (.hdSetDdram 0x44#7) ∧
    decode (.word 0b1001000001#10) = .ok (.hdWriteData 0x41#8) ∧
    decode (.word 0b0110000000#10) = .ok (.hdReadBfAddr 0x80#8) ∧
    decode (.word 0b1101000001#10) = .ok (.hdReadData 0x41#8) ∧
    decode (.nibble 0b000010#6) = .ok .loneNibble := by decide

/-- What no row gives is refused by name (R73, R76, R77). -/
theorem test_decode_refuses :
    decode (.request []) = .error .emptyFrame ∧
    decode (.request [0x00#8, 0x00#8]) = .error (.operandCount 0x00#8) ∧
    decode (.request [0x08#8, 0x02#8]) = .error (.bitOperand 0x08#8) ∧
    decode (.word 0#10) = .error .noSuchWord ∧
    decode (.nibble 0b000011#6) = .error .noSuchNibble := by decide

/-- The bits of opcode-table rows: 8-bit codes, 10-bit words in two bytes, the 6-bit nibble. -/
theorem test_decode_table_words :
    decodeTableWord 8 0x04 = some (.goto 0#8 0#8) ∧ decodeTableWord 8 0x0E = some (.reserved0E0F 0x0E#8) ∧
    decodeTableWord 16 0x241 = some (.hdWriteData 0x41#8) ∧ decodeTableWord 16 0x028 = some (.hdFunctionSet false true false 0#2) ∧
    decodeTableWord 6 2 = some .loneNibble ∧ decodeTableWord 16 0x400 = none := by decide

/-! States -/

/-- The data field of an 8-bit port at shift 4, driven to `v`; the other bits unknown. -/
def portAt (v : Nibble) : List (Option Bool) := drivePort Cfg.standard v (List.replicate 8 none)

/-- S0 of spec/95, with no trace yet. -/
def s0 : State :=
  { State.reset with
    shadow := ⟨some 0x02#8, some 0x04#8, some 0#8, some 0x08#8, some 0#8, some 0#8⟩
    phase := 9#4, rs := some false, rw := some false, en := some false, dbus := some 2#4, port := portAt 2#4
    dir := [.db4, .db5, .db6, .db7, .rs, .rw, .en] }

/-- S0 of a block with the backlight. -/
def s0bl : State := { s0 with cfg := { Cfg.standard with pBacklight := true } }

/-- S0 of a block of 4 lines and 20 columns. -/
def s0four : State := { s0 with cfg := { Cfg.standard with pLines := 4, pCols := 20 } }

/-- S0 of a block with another legal HD table: `HD.CLEAR` 0x00 and `HD.HOME` 0x80, both long operations. -/
def s0odd : State :=
  { s0 with cfg := { Cfg.standard with
      hd := { HDTable.standard with clear := 0x00#8, home := 0x80#8 }, pLongOps := [0x00#8, 0x80#8] } }

/-- `CMD 0x28` in flight at SEQ.POS = 7 (vector F14): the rest of `CMD(0x28)` is to come. -/
def s7 : State :=
  { s0 with
    busy := true, active := some 0x01#8, pos := 7
    todo := [.emit (.set .en false), .emit (.wait .pulse)] ++ [.emit (.dbus 0#4), .emit (.dbus 8#4), .emit (.set .en true),
      .emit (.wait .pulse), .emit (.set .en false), .emit (.wait .pulse), .emit (.wait .exec)] }

/-- A halted S0. -/
def halted : State := { s0 with fault := ⟨true, 6#4, 0x04#8⟩ }

/-- The next state, where there is one. -/
def nextOf (r : Result) : Option State :=
  match r with
  | .next s => some s
  | .fault _ => none
  | .refused _ => none

/-- The transfer log an instruction adds to S0 (R113). -/
def logOf (i : Instr) (s : State) : Option (List Xfer) := (nextOf (exec i s)).map fun t => xfer t.trace

/-- The fault an instruction leaves, with the length of the trace. -/
def faultOf (i : Instr) (s : State) : Option (BitVec 4 × Byte × Nat) :=
  (nextOf (exec i s)).map fun t => (t.fault.cause, t.fault.req, t.trace.length)

/-! Vectors of spec/95 -/

/-- K1. -/
theorem test_K1_sendCmd : (nextOf (exec (.sendCmd 0x28#8) s0)).map (·.trace) = some
    [.set .rs false, .set .rw false, .wait .as, .dbus 0#4, .dbus 2#4, .set .en true, .wait .pulse, .set .en false, .wait .pulse,
     .dbus 0#4, .dbus 8#4, .set .en true, .wait .pulse, .set .en false, .wait .pulse, .wait .exec] := by decide

/-- K2, K3, K4: the long wait. -/
theorem test_K2_K3_K4_longOps : logOf (.sendCmd 0x01#8) s0 = some [.c 0x01#8 .long] ∧
    logOf (.sendCmd 0x03#8) s0 = some [.c 0x03#8 .long] ∧ logOf (.sendCmd 0x04#8) s0 = some [.c 0x04#8 .exec] := by decide

/-- Q4, K6: a data byte never waits long. -/
theorem test_Q4_K6_sendData : (nextOf (exec (.sendData 0x48#8) s0)).map (fun t => (xfer t.trace, t.rs, t.dbus)) =
      some ([.d 0x48#8], some true, some 8#4) ∧
    (nextOf (exec (.sendData 0x01#8) s0)).map (·.trace.getLast?) = some (some (.wait .exec)) := by decide

/-- Q5, Q6. -/
theorem test_Q5_Q6_clear_home : logOf .clear s0 = some [.c 0x01#8 .long] ∧ logOf .home s0 = some [.c 0x02#8 .long] := by decide

/-- Q7: before INIT. -/
theorem test_Q7_notReady : faultOf (.sendCmd 0x0F#8) State.reset = some (4#4, 0x01#8, 0) := by decide

/-- W2, W3. -/
theorem test_W2_W3_writeString : logOf (.writeString []) s0 = some [] ∧
    logOf (.writeString [0x41#8, 0x00#8, 0x42#8]) s0 = some [.d 0x41#8, .d 0x00#8, .d 0x42#8] := by decide

/-- A2, A7, A8. -/
theorem test_A2_A7_A8_goto : logOf (.goto 2#8 5#8) s0 = some [.c 0xC4#8 .exec] ∧
    logOf (.goto 4#8 20#8) s0four = some [.c 0xE7#8 .exec] ∧ logOf (.goto 3#8 20#8) s0four = some [.c 0xA7#8 .exec] := by decide

/-- A11 to A16: the row first. -/
theorem test_A11_A16_goto_range : faultOf (.goto 3#8 1#8) s0 = some (6#4, 0x04#8, 0) ∧
    faultOf (.goto 0#8 0#8) s0 = some (6#4, 0x04#8, 0) ∧ faultOf (.goto 1#8 0#8) s0 = some (7#4, 0x04#8, 0) ∧
    faultOf (.goto 1#8 17#8) s0 = some (7#4, 0x04#8, 0) ∧ faultOf (.goto 2#8 40#8) s0four = some (7#4, 0x04#8, 0) := by decide

set_option maxRecDepth 20000 in
/-- DC1. -/
theorem test_DC1_defChar :
    logOf (.defChar 3#8 [0x00#8, 0x0A#8, 0x1F#8, 0x1F#8, 0x0E#8, 0x04#8, 0x00#8, 0x00#8]) s0 = some
      [.c 0x58#8 .exec, .d 0x00#8, .d 0x0A#8, .d 0x1F#8, .d 0x1F#8, .d 0x0E#8, .d 0x04#8, .d 0x00#8, .d 0x00#8] := by decide

/-- DC4 to DC7. -/
theorem test_DC4_DC7_defChar_faults :
    faultOf (.defChar 8#8 (List.replicate 8 0#8)) s0 = some (8#4, 0x05#8, 0) ∧
    faultOf (.defChar 0#8 (List.replicate 7 0#8)) s0 = some (9#4, 0x05#8, 0) ∧
    faultOf (.defChar 0#8 (List.replicate 9 0#8)) s0 = some (9#4, 0x05#8, 0) ∧
    faultOf (.defChar 9#8 (List.replicate 7 0#8)) s0 = some (8#4, 0x05#8, 0) := by decide

/-- T1, T5, and a blink from S0. -/
theorem test_T1_T5_toggles : logOf (.setCursor true) s0 = some [.c 0x0E#8 .exec] ∧
    logOf (.setDisplay true) s0 = some [.c 0x0C#8 .exec] ∧ logOf (.setBlink true) s0 = some [.c 0x0D#8 .exec] ∧
    logOf (.setDisplay false) s0 = some [.c 0x08#8 .exec] := by decide

/-- T7, T8. -/
theorem test_T7_T8_entryMode : logOf (.setEntryMode false true) s0 = some [.c 0x04#8 .exec, .c 0x05#8 .exec] ∧
    (nextOf (exec (.setEntryMode false true) s0)).map (·.shadow.entryMode) = some (some 0x01#8) ∧
    logOf (.setEntryMode true false) s0 = some [.c 0x06#8 .exec, .c 0x06#8 .exec] := by decide

/-- T10, T13, T14. -/
theorem test_T10_T13_T14_setFlag : logOf (.setFlag 0x10#8 0x0C#8 true) s0 = some [.c 0x1C#8 .exec] ∧
    logOf (.setFlag 0x20#8 0x10#8 false) s0 = some [.c 0x28#8 .exec] ∧
    logOf (.setFlag 0x20#8 0x04#8 true) s0 = some [.c 0x2C#8 .exec] := by decide

/-- F1, F3, F5, F6, F8. -/
theorem test_F1_F8_setFlag_faults : faultOf (.setFlag 0x40#8 0x01#8 true) s0 = some (10#4, 0x0D#8, 0) ∧
    faultOf (.setFlag 0x01#8 0x00#8 true) s0 = some (10#4, 0x0D#8, 0) ∧
    faultOf (.setFlag 0x20#8 0x03#8 true) s0 = some (11#4, 0x0D#8, 0) ∧
    faultOf (.setFlag 0x20#8 0x10#8 true) s0 = some (12#4, 0x0D#8, 0) ∧
    faultOf (.setFlag 0x40#8 0xFF#8 true) s0 = some (10#4, 0x0D#8, 0) := by decide

/-- L1, L4, L5. -/
theorem test_L1_L4_L5_backlight : (nextOf (exec (.setBacklight false) s0bl)).map (·.trace) = some [.set .bl false] ∧
    faultOf (.setBacklight true) s0 = some (5#4, 0x0B#8, 0) ∧
    faultOf (.setBacklight true) State.reset = some (4#4, 0x0B#8, 0) := by decide

set_option maxRecDepth 20000 in
/-- I1, I5: the end state of the default INIT. -/
theorem test_I1_init :
    (nextOf (exec .init State.reset)).map (fun t => (t.shadow, t.phase, t.dir)) = some (s0.shadow, 9#4, s0.dir) ∧
    (nextOf (exec .init State.reset)).map (fun t => (t.rs, t.dbus, t.trace.length)) =
      some (some false, some 2#4, 171) := by decide

set_option maxRecDepth 20000 in
/-- I6: a shorter legal schedule, 139 events; I7: a schedule that sets DL is refused. -/
theorem test_I6_I7_schedules :
    (nextOf (exec .init (State.resetWith { Cfg.standard with initSchedule :=
        ⟨[⟨0x20#8, 0x14#8, false⟩, ⟨0x20#8, 0x08#8, true⟩], [⟨0x08#8, 0x04#8, true⟩, ⟨0x08#8, 0x03#8, false⟩],
         [⟨0x04#8, 0x02#8, true⟩, ⟨0x04#8, 0x01#8, false⟩]⟩ }))).map (fun t => (t.shadow, t.trace.length)) =
      some (s0.shadow, 139) ∧
    { Cfg.standard with initSchedule := { Cfg.standard.initSchedule with step4 :=
        [⟨0x20#8, 0x10#8, true⟩, ⟨0x20#8, 0x0C#8, false⟩] } }.legal = false := by decide

/-- I8, F9, F10, F13. -/
theorem test_I8_F9_F10_F13 : faultOf .init s0 = some (3#4, 0x00#8, 0) ∧
    faultOf (.reserved0E0F 0x0E#8) s0 = some (2#4, 0x0E#8, 0) ∧
    faultOf (.reserved80FF 0xFF#8) State.reset = some (2#4, 0xFF#8, 0) ∧
    exec (.sendData 0x41#8) halted = .next halted := by
  refine ⟨by decide, by decide, by decide, rfl⟩

/-- F14: a request presented in the middle of another faults, and the one in flight is untouched. -/
theorem test_F14_busy : (nextOf (step { s7 with acts := [.call [0x02#8, 0x41#8]] })).map
    (fun t => (t.fault, t.busy, t.active, t.pos, t.todo)) =
      some (⟨true, 1#4, 0x02#8⟩, true, some 0x01#8, 7, s7.todo) := by decide

/-- F14, next step: the request in flight goes on although the block is halted. -/
theorem test_F14_goes_on : (nextOf (step { s7 with fault := ⟨true, 1#4, 0x02#8⟩ })).map (fun t => (t.trace, t.pos)) =
    some ([.set .en false], 8) := by decide

/-- B5, B6, B7: the data field of the port. -/
theorem test_B5_B6_B7_port :
    drivePort Cfg.standard 0xA#4 (knownPort 0x0B#8) = knownPort 0xAB#8 ∧
    drivePort { Cfg.standard with pDataShift := 0, pDataMask := 0x0F } 0x5#4 (knownPort 0xC3#8) = knownPort 0xC5#8 ∧
    drivePort { Cfg.standard with pDataShift := 2, pDataMask := 0x3C } 0x9#4 (knownPort 0xFF#8) = knownPort 0xE7#8 := by decide

/-- B8, B9, A17: refused configurations; every other condition of R241 has one here too. -/
theorem test_refused_configurations :
    { Cfg.standard with pDataShift := 5, pDataMask := 0x1E0 }.legal = false ∧
    { Cfg.standard with pDataMask := 0x78 }.legal = false ∧
    { Cfg.standard with pLines := 3, pCols := 40 }.legal = false ∧
    { Cfg.standard with tLong := 50000, bLong := 50000 }.legal = false ∧
    { Cfg.standard with tPulse := 249 }.legal = false ∧
    { Cfg.standard with pLongOps := [0x01#8] }.legal = false ∧
    { Cfg.standard with hd := { HDTable.standard with setDdram := 0x40#8 } }.legal = false ∧
    Cfg.standard.legal = true ∧ s0four.cfg.legal = true ∧ s0bl.cfg.legal = true := by decide

/-- The output words, as the block sends them (K1, K5; R164). -/
theorem test_words_sent : logOf (.hdFunctionSet false true false 0#2) s0 = some [.c 0x28#8 .exec] ∧
    logOf (.hdHome true) s0 = some [.c 0x03#8 .long] ∧ logOf (.hdEntryMode true false) s0 = some [.c 0x06#8 .exec] ∧
    logOf (.hdDisplayControl true false false) s0 = some [.c 0x0C#8 .exec] ∧ logOf .hdClear s0 = some [.c 0x01#8 .long] ∧
    logOf (.hdShift true false 0#2) s0 = some [.c 0x18#8 .exec] ∧ logOf (.hdSetCgram 24#6) s0 = some [.c 0x58#8 .exec] ∧
    logOf (.hdSetDdram 0x67#7) s0 = some [.c 0xE7#8 .exec] ∧ logOf (.hdWriteData 0x41#8) s0 = some [.d 0x41#8] ∧
    logOf .loneNibble s0 = some [.n 2#4] := by decide

/-- R247: the commands that end CGRAM addressing, HOME with either value of its don't-care bit among them, and some that do
not; CLEAR by the block's own table. -/
theorem test_R247_dataSpace :
    (∀ op ∈ [0x80#8, 0xFF#8, 0x01#8, 0x02#8, 0x03#8], dataSpace HDTable.standard (some .cgram) [.c op .exec] = some .ddram) ∧
    (∀ op ∈ [0x00#8, 0x04#8, 0x3F#8], dataSpace HDTable.standard (some .cgram) [.c op .exec] = some .cgram) ∧
    (∀ op ∈ [0x40#8, 0x7F#8], dataSpace HDTable.standard (some .ddram) [.c op .exec, .d 0x01#8] = some .cgram) ∧
    (nextOf (exec .clear s0odd)).map (fun t => dataSpace s0odd.cfg.hd (some .cgram) (xfer t.trace)) = some (some .ddram) := by
  decide

/-- The text syntax (R86). -/
theorem test_requestText : requestText (.goto 2#8 5#8) = some "GOTO 2, 5" ∧
    requestText (.setEntryMode false true) = some "ENTRY dec, shift" := by decide

/-- Placed where the next step runs them: a request, a word, the lone nibble. -/
theorem test_withFetchWord :
    step (State.reset.withFetchWord 8 0x00) = exec .init State.reset ∧
    (nextOf (step (State.reset.withFetchWord 16 0x241))).map (fun t => xfer t.trace) = some [.d 0x41#8] ∧
    (nextOf (step (State.reset.withFetchWord 6 2))).map (fun t => xfer t.trace) = some [.n 2#4] := by
  refine ⟨rfl, by decide, by decide⟩

/-! Witnesses: a concrete state and operands that meet all hypotheses of an obligation together. Obligations without a
hypothesis have none. -/

/-- INIT in flight, between step 7's first and second flag call. -/
def sInit : State :=
  { s0 with
    phase := 5#4, busy := true, active := some 0x00#8, pos := 107
    todo := [.word 0x006#10, .flag 0x04#8 0x01#8 false, .phase 6#4, .word 0x001#10, .phase 7#4, .word 0x002#10, .phase 8#4,
      .phase 9#4] }

/-- The reset state of spec/95's configuration with another one that is refused. -/
def badState : State := State.resetWith { Cfg.standard with pLines := 5, pCols := 1 }

theorem s0_idle : s0.Idle := ⟨by decide, rfl, rfl⟩

theorem s0_ready : s0.Ready := ⟨s0_idle, rfl⟩

theorem s0bl_ready : s0bl.Ready := ⟨⟨by decide, rfl, rfl⟩, rfl⟩

theorem s0four_ready : s0four.Ready := ⟨⟨by decide, rfl, rfl⟩, rfl⟩

theorem reset_idle : State.reset.Idle := ⟨by decide, rfl, rfl⟩

theorem witness_ResetAbandonsTheRequest :
    { s7 with acts := [.reset] }.cfg.legal = true ∧ { s7 with acts := [.reset] }.acts = .reset :: [] := ⟨by decide, rfl⟩

/-- Condition 1 fails one line above its range: the negated conjunction holds, and the step is refused. -/
theorem witness_IllegalConfigurationIsRefused :
    ¬(badState.cfg.pLines ≤ 4) ∧ step badState = .refused .illegalConfig ∧
    ({ Cfg.standard with pLines := 4, pCols := 20 } : Cfg).legal = true := ⟨by decide, rfl, by decide⟩

theorem witness_StepKeepsTheConfiguration : ∃ t, step s7 = .next t := ⟨_, rfl⟩

/-- The four bits of the mask at their ends, and the bits next to them. -/
theorem witness_DbusIsAMaskedPortWrite :
    Cfg.standard.legal = true ∧
    (Cfg.standard.pDataShift ≤ 4 ∧ 4 < Cfg.standard.pDataShift + 4 ∧ 4 < (portAt 0#4).length) ∧
    (Cfg.standard.pDataShift ≤ 7 ∧ 7 < Cfg.standard.pDataShift + 4 ∧ 7 < (portAt 0#4).length) ∧
    3 < Cfg.standard.pDataShift ∧ Cfg.standard.pDataShift + 4 ≤ 8 := by decide

theorem witness_SendCmdSendsTheByte : s0.Ready := s0_ready

theorem witness_SendDataSendsTheByte : s0.Ready := s0_ready

theorem witness_ClearAndHomeWaitLong : s0.Ready := s0_ready

theorem witness_WriteStringSendsEachByte : s0.Ready := s0_ready

/-- Both corners of the display. -/
theorem witness_GotoSendsTheAddress : s0four.Ready ∧
    (1 ≤ (1#8).toNat ∧ (1#8).toNat ≤ s0four.cfg.pLines ∧ 1 ≤ (1#8).toNat ∧ (1#8).toNat ≤ s0four.cfg.pCols) ∧
    (1 ≤ (4#8).toNat ∧ (4#8).toNat ≤ s0four.cfg.pLines ∧ 1 ≤ (20#8).toNat ∧ (20#8).toNat ≤ s0four.cfg.pCols) :=
  ⟨s0four_ready, by decide, by decide⟩

theorem witness_DefCharSendsTheEightRows : s0.Ready ∧ (0#8).toNat ≤ 7 ∧ (7#8).toNat ≤ 7 := ⟨s0_ready, by decide⟩

theorem witness_DisplayTogglesResendTheSlot : s0.Ready ∧ s0.shadow.displayControl = some 0x04#8 := ⟨s0_ready, rfl⟩

theorem witness_EntryModeSendsTwoCommands : s0.Ready ∧ s0.shadow.entryMode = some 0x02#8 ∧
    0x02#8 &&& ~~~(s0.cfg.hd.emId ||| s0.cfg.hd.emS) = 0#8 := ⟨s0_ready, rfl, by decide⟩

/-- Every toggle class: its whole mask set, and for FunctionSet all but DL set and all cleared. -/
theorem witness_SetFlagResendsTheSlot : s0.Ready ∧
    (∀ i ∈ [InstrClass.entryMode, .displayControl, .cursorDisplayShift], i.isToggle = true ∧
      i.mask s0.cfg.hd &&& ~~~(i.mask s0.cfg.hd) = 0#8 ∧ i ≠ .functionSet ∧ (s0.shadow.get i).isSome = true) ∧
    InstrClass.functionSet.isToggle = true ∧ 0x0C#8 &&& ~~~(InstrClass.functionSet.mask s0.cfg.hd) = 0#8 ∧
    0x0C#8 &&& s0.cfg.hd.fsDl = 0#8 ∧ 0x1C#8 &&& ~~~(InstrClass.functionSet.mask s0.cfg.hd) = 0#8 ∧
    s0.shadow.get .functionSet = some 0x08#8 := ⟨s0_ready, by decide⟩

theorem witness_BacklightDrivesTheLine : s0bl.Ready ∧ s0bl.cfg.pBacklight = true ∧ s0.Ready ∧ s0.cfg.pBacklight = false :=
  ⟨s0bl_ready, rfl, s0_ready, rfl⟩

theorem witness_InitReachesReady : State.reset.Idle ∧ State.reset.phase = 0#4 := ⟨reset_idle, rfl⟩

theorem witness_InitUnderEverySchedule : Cfg.standard.legal = true ∧ Cfg.standard.hd = HDTable.standard ∧
    Cfg.standard.pLongOps = [0x01#8, 0x02#8, 0x03#8] := by decide

theorem witness_InitWaitCounts : Cfg.standard.legal = true ∧ Cfg.standard.hd = HDTable.standard ∧
    Cfg.standard.pLongOps = [0x01#8, 0x02#8, 0x03#8] := by decide

/-- Both ends of every range. -/
theorem witness_ReservedCodesFault : State.reset.Idle ∧
    (0x10 ≤ (0x10#8).toNat ∧ (0x1F#8).toNat ≤ 0x1F) ∧ (0x20 ≤ (0x20#8).toNat ∧ (0x3F#8).toNat ≤ 0x3F) ∧
    (0x40 ≤ (0x40#8).toNat ∧ (0x7F#8).toNat ≤ 0x7F) ∧ 0x80 ≤ (0x80#8).toNat ∧ 0x80 ≤ (0xFF#8).toNat :=
  ⟨reset_idle, by decide⟩

theorem witness_OutputWordsAreSent : s0.cfg.legal = true := by decide

theorem witness_LoneNibbleIsOneStrobe : State.reset.cfg.legal = true := by decide

theorem witness_HaltedBlockIgnoresRequests : halted.cfg.legal = true ∧ halted.fault.v = true ∧
    (Instr.sendData 0x41#8).wf = true ∧ requestCode (.sendData 0x41#8) = some 0x02#8 := by decide

/-- F14. -/
theorem witness_BusyBlockFaultsEveryRequest : s7.cfg.legal = true ∧ s7.fault.v = false ∧ s7.busy = true ∧
    (Instr.reserved80FF 0xFF#8).wf = true ∧ requestCode (.reserved80FF 0xFF#8) = some 0xFF#8 := by decide

/-- F11. -/
theorem witness_NotReadyBlockFaultsRuntimeRequests : State.reset.Idle ∧ State.reset.phase ≠ 9#4 ∧
    requestCode (.goto 0#8 0#8) = some 0x04#8 ∧ (Instr.goto 0#8 0#8).wf = true ∧ 0x04#8 ≠ 0#8 ∧ (0x04#8).toNat ≤ 0x0D :=
  ⟨reset_idle, by decide⟩

theorem witness_SecondInitFaults : s0.Idle ∧ s0.phase ≠ 0#4 := ⟨s0_idle, by decide⟩

/-- Row 0 and the first row below; column 0 and the first column to the right. -/
theorem witness_GotoFaultsOutOfRange : s0.Ready ∧ (0#8).toNat < 1 ∧ s0.cfg.pLines < (3#8).toNat ∧
    1 ≤ (2#8).toNat ∧ (2#8).toNat ≤ s0.cfg.pLines ∧ s0.cfg.pCols < (17#8).toNat := ⟨s0_ready, by decide⟩

theorem witness_DefCharFaultsOnIndexOrLength : s0.Ready ∧ 7 < (8#8).toNat ∧ (7#8).toNat ≤ 7 ∧
    (List.replicate 7 0#8).length ≠ 8 ∧ (List.replicate 9 0#8).length ≠ 8 := ⟨s0_ready, by decide⟩

/-- F1 (an address class), F5 (a don't-care bit), F7 (DL among legal flags). -/
theorem witness_SetFlagFaultsInOrder : s0.Ready ∧
    0x40#8 ∉ [s0.cfg.hd.entryMode, s0.cfg.hd.displayControl, s0.cfg.hd.shift, s0.cfg.hd.functionSet] ∧
    (InstrClass.functionSet.isToggle = true ∧ 0x20#8 = InstrClass.functionSet.opcode s0.cfg.hd ∧
      0x03#8 &&& ~~~(InstrClass.functionSet.mask s0.cfg.hd) ≠ 0#8) ∧
    (0x20#8 = s0.cfg.hd.functionSet ∧ 0x18#8 &&& ~~~(InstrClass.functionSet.mask s0.cfg.hd) = 0#8 ∧
      0x18#8 &&& s0.cfg.hd.fsDl ≠ 0#8) := ⟨s0_ready, by decide⟩

/-- A Ready block with no slot written. -/
theorem witness_UnwrittenSlotFaults : { State.reset with phase := 9#4 }.Ready ∧
    { State.reset with phase := 9#4 }.shadow.displayControl = none ∧
    { State.reset with phase := 9#4 }.shadow.entryMode = none ∧
    (InstrClass.functionSet.isToggle = true ∧ 0x08#8 &&& ~~~(InstrClass.functionSet.mask State.reset.cfg.hd) = 0#8 ∧
      0x08#8 &&& State.reset.cfg.hd.fsDl = 0#8 ∧ { State.reset with phase := 9#4 }.shadow.get .functionSet = none) :=
  ⟨⟨⟨by decide, rfl, rfl⟩, rfl⟩, by decide⟩

theorem witness_FaultsArePrecise : ∃ t, exec (.goto 0#8 1#8) s0 = .next t ∧ t.fault ≠ s0.fault := ⟨_, rfl, by decide⟩

theorem witness_StepKeepsBusyWithActive : BusyInv s7 ∧ ∃ t, step s7 = .next t := ⟨⟨rfl, by decide⟩, _, rfl⟩

theorem witness_StepKeepsSettled : SettledInv sInit ∧ ∃ t, step sInit = .next t :=
  ⟨⟨rfl, by decide, by decide⟩, _, rfl⟩

theorem witness_StepKeepsPhaseOrder : PhaseInv sInit ∧ (∃ t, step sInit = .next t) ∧ sInit.noReset = true :=
  ⟨⟨by decide, by decide, by decide⟩, ⟨_, rfl⟩, rfl⟩

theorem witness_StepNeverDrivesRwHigh : RwInv sInit ∧ ∃ t, step sInit = .next t :=
  ⟨⟨by decide, by decide, by decide⟩, _, rfl⟩

theorem witness_StepKeepsShadowOwnFlags : ShadowInv sInit ∧ ∃ t, step sInit = .next t := by
  refine ⟨⟨?_, ?_⟩, _, rfl⟩
  · intro i v h
    cases i <;> cases h <;> decide
  · intro op h
    simp only [sInit, List.mem_cons, List.not_mem_nil, or_false] at h
    rcases h with rfl | rfl | rfl | rfl | rfl | rfl | rfl | rfl
    case inr.inl =>
      intro i h
      cases h
      decide
    all_goals trivial

theorem witness_StepKeepsFaultRegister : FaultInv s7 ∧ FaultInv halted ∧ ∃ t, step s7 = .next t :=
  ⟨⟨by decide, by decide⟩, ⟨by decide, by decide⟩, _, rfl⟩

theorem witness_TraceOnlyGrows : s7.noReset = true ∧ ∃ t, step s7 = .next t := ⟨rfl, _, rfl⟩

theorem witness_FirstFaultIsKept : { s7 with fault := halted.fault }.noReset = true ∧ halted.fault.v = true ∧
    ∃ t, step { s7 with fault := halted.fault } = .next t := ⟨rfl, rfl, _, rfl⟩

theorem witness_OnlyFlagAndInitWriteShadow : ∃ t, exec (.setCursor true) s0 = .next t ∧ t.shadow ≠ s0.shadow :=
  ⟨_, rfl, by decide⟩

theorem witness_EventStepsEqualTheWholeRequest : s0.acts = [] ∧ s0.todo = [] ∧
    (∃ t, exec (.setEntryMode true false) s0 = .next t) ∧ ∃ u, presentInstr (.setEntryMode true false) s0 = .next u :=
  ⟨rfl, rfl, ⟨_, rfl⟩, _, rfl⟩

theorem witness_OneEventPerStep : sInit.cfg.legal = true ∧ SettledInv sInit ∧ RwInv sInit ∧ sInit.acts = [] ∧
    sInit.busy = true := ⟨by decide, witness_StepKeepsSettled.1, witness_StepNeverDrivesRwHigh.1, rfl, rfl⟩

/-- Both ends of each reserved range; every other constructor is well formed. -/
theorem witness_DecodeInvertsEncode : (Instr.reserved0E0F 0x0E#8).wf = true ∧ (Instr.reserved0E0F 0x0F#8).wf = true ∧
    (Instr.reserved101F 0x10#8).wf = true ∧ (Instr.reserved101F 0x1F#8).wf = true ∧ (Instr.reserved203F 0x20#8).wf = true ∧
    (Instr.reserved203F 0x3F#8).wf = true ∧ (Instr.reserved407F 0x40#8).wf = true ∧ (Instr.reserved407F 0x7F#8).wf = true ∧
    (Instr.reserved80FF 0x80#8).wf = true ∧ (Instr.reserved80FF 0xFF#8).wf = true := by decide

theorem witness_EveryWordIsOneRow : (0x3FF#10 : Word10) ≠ 0#10 := by decide

/-- The last code of the table, and the first reserved one. -/
theorem witness_DecodedRequestsEncodeBack :
    decode (.request [0x0D#8, 0x08#8, 0x02#8, 0x01#8]) = .ok (.setFlag 0x08#8 0x02#8 true) ∧ (0x0D#8).toNat ≤ 0x0D ∧
    decode (.request [0x0E#8]) = .ok (.reserved0E0F 0x0E#8) ∧ 0x0D < (0x0E#8).toNat := by decide

theorem witness_StepRunsTheRequestPresented :
    { s0 with acts := [.call [0x06#8]] }.cfg.legal = true ∧ { s0 with acts := [.call [0x06#8]] }.acts = .call [0x06#8] :: [] ∧
    decode (.request [0x06#8]) = .ok .clear ∧
    { s0 with acts := [.call []] }.acts = .call [] :: [] ∧ decode (.request []) = .error .emptyFrame := by decide

theorem witness_StepRunsTheWordInFlight :
    { sInit with acts := [.transfer] }.cfg.legal = true ∧ { sInit with acts := [.transfer] }.busy = true ∧
    { sInit with acts := [.transfer] }.acts = .transfer :: [] ∧
    { sInit with acts := [.transfer] }.todo = .word 0x006#10 :: sInit.todo.tail ∧
    decode (.word 0x006#10) = .ok (.hdEntryMode true false) ∧
    { sInit with acts := [.transfer], todo := [.lone, .phase 3#4] }.todo = .lone :: [.phase 3#4] := by decide

theorem witness_PlacedRequestRuns : State.reset.cfg.legal = true ∧ decodeTableWord 8 0xFF = some (.reserved80FF 0xFF#8) := by
  decide

/-- The corners of 4 lines of 20 columns. -/
theorem witness_AddressesAreBoundedAndDisjoint : s0four.cfg.legal = true ∧ 4 ≤ s0four.cfg.pLines ∧
    20 ≤ s0four.cfg.pCols ∧ 1 ≤ s0four.cfg.pLines ∧ 1 ≤ s0four.cfg.pCols := by decide

theorem witness_SetFlagPerturbsNothingElse : s0.Ready ∧ slotOf s0.cfg.hd 0x08#8 = some .displayControl ∧
    s0.shadow.get .displayControl = some 0x04#8 ∧ (∃ t, exec (.setFlag 0x08#8 0x03#8 true) s0 = .next t) ∧
    (0x03#8).getLsbD 2 = false := ⟨s0_ready, by decide, rfl, ⟨_, rfl⟩, by decide⟩

/-- TL1: slot 0x04, flag 0x02. -/
theorem witness_ToggleLaws : s0.Ready ∧ InstrClass.displayControl.isToggle = true ∧
    0x02#8 &&& ~~~(InstrClass.displayControl.mask s0.cfg.hd) = 0#8 ∧
    (InstrClass.displayControl = .functionSet → 0x02#8 &&& s0.cfg.hd.fsDl = 0#8) ∧
    s0.shadow.get .displayControl = some 0x04#8 := ⟨s0_ready, by decide⟩

/-- The last character, and a command that is no long operation. -/
theorem witness_RequestDurations : s0.Ready ∧ 0x04#8 ∉ s0.cfg.pLongOps ∧ (7#8).toNat ≤ 7 ∧
    (List.replicate 8 0#8).length = 8 ∧ s0.cfg.hd.setCgram ||| 7#8 <<< 3 ∉ s0.cfg.pLongOps := ⟨s0_ready, by decide⟩

/-- The last character and the last position; CLEAR and HOME in the standard table, and just outside the bytes left out. -/
theorem witness_DefCharLeavesCgramAddressed : s0.Ready ∧ (7#8).toNat ≤ 7 ∧ (List.replicate 8 0#8).length = 8 ∧
    1 ≤ (2#8).toNat ∧ (2#8).toNat ≤ s0.cfg.pLines ∧ 1 ≤ (16#8).toNat ∧ (16#8).toNat ≤ s0.cfg.pCols ∧
    s0.cfg.hd.clear.toNat / 0x40 ≠ 1 ∧ s0.cfg.hd.home.toNat / 0x40 ≠ 1 ∧
    s0odd.Ready ∧ s0odd.cfg.hd.clear.toNat / 0x40 ≠ 1 ∧ s0odd.cfg.hd.home.toNat / 0x40 ≠ 1 :=
  ⟨s0_ready, by decide, by decide, by decide, by decide, by decide, by decide, by decide, by decide,
    ⟨⟨by decide, rfl, rfl⟩, rfl⟩, by decide, by decide⟩

/-- The bits next to the data field, and its two ends. -/
theorem witness_HostDrivesOnlyItsPortBits :
    { s0 with acts := [.portWrite 3 true] }.cfg.legal = true ∧
    { s0 with acts := [.portWrite 3 true] }.acts = .portWrite 3 true :: [] ∧
    3 < s0.port.length ∧ 3 < s0.cfg.pDataShift ∧ s0.cfg.pDataShift ≤ 4 ∧ 7 < s0.cfg.pDataShift + 4 := by decide

end Sys2Proof.Tests
end

section
/-! SUPPORT. What is left of a request (R28, log 2): the events of each operation, the settled remainder, what running or
settling operations keeps, and which operations the requests of the table have. -/

namespace Sys2Proof.Machine

/-! The events of an operation -/

/-- The bus events of one operation (R17, R76, R164); a register write has none (R131, R161). -/
def Op.events (c : Cfg) : Op → List Event
  | .emit e => [e]
  | .word w => wordEvents c w
  | .lone => loneEvents
  | .phase _ => []
  | .zeroShadow => []
  | .flag _ _ _ => []

theorem wordEvents_ne_nil (c : Cfg) (w : Word10) : wordEvents c w ≠ [] := by
  unfold wordEvents
  split
  · simp [dataEvents]
  · simp [cmdEvents]

/-- What is left is settled exactly when it is empty or its first operation has an event. -/
theorem settledOps_cons_iff (c : Cfg) (op : Op) (r : List Op) : settledOps (op :: r) = true ↔ op.events c ≠ [] := by
  cases op with
  | word w => simp [settledOps, Op.events, wordEvents_ne_nil]
  | lone => simp [settledOps, Op.events, loneEvents]
  | emit | phase | zeroShadow | flag => simp [settledOps, Op.events]

@[simp] theorem phasesOf_emits (es : List Event) (r : List Op) : phasesOf (es.map .emit ++ r) = phasesOf r := by
  induction es with
  | nil => rfl
  | cons e es ih => exact ih

theorem phasesOf_cons_of_events {c : Cfg} {op : Op} (h : op.events c ≠ []) (r : List Op) :
    phasesOf (op :: r) = phasesOf r := by
  cases op with
  | phase p => exact absurd rfl h
  | emit | word | lone | zeroShadow | flag => rfl

theorem runOps_cons_of_events {op : Op} {s : State} (h : op.events s.cfg ≠ []) (r : List Op) :
    runOps (op :: r) s = runOps r (s.emitAll (op.events s.cfg)) := by
  cases op with
  | emit | word | lone => rfl
  | phase | zeroShadow | flag => exact absurd rfl h

theorem settle_of_settled {op : Op} {r : List Op} (h : settledOps (op :: r) = true) (s : State) :
    settle (op :: r) s = { s with todo := op :: r } := by
  cases op with
  | emit | word | lone => rfl
  | phase | zeroShadow | flag => simp [settledOps] at h

/-! FLAG among the operations (R131, R23, R26) -/

/-- FLAG writes the slot of its class and nothing else of SHADOW (R131). -/
theorem flagShadow_ok {h : HDTable} {sh sh' : Shadow} {cls bits byte : Byte} {en : Bool}
    (hf : flagShadow h sh cls bits en = .ok (sh', byte)) :
    ∃ i v, slotOf h cls = some i ∧ sh.get i = some v ∧ sh' = sh.set (toggled v bits en) i := by
  unfold flagShadow at hf
  split at hf
  · simp at hf
  next i hi =>
    split at hf
    · simp at hf
    next v hv =>
      simp only [Except.ok.injEq, Prod.mk.injEq] at hf
      exact ⟨i, v, hi, hv, hf.1.symm⟩

theorem settle_flag_ok {cls bits byte : Byte} {en : Bool} {s : State} {sh : Shadow} (r : List Op)
    (h : flagShadow s.cfg.hd s.shadow cls bits en = .ok (sh, byte)) :
    settle (.flag cls bits en :: r) s = { s with shadow := sh, todo := .word (cmdWord byte) :: r } := by
  simp [settle, h]

theorem settle_flag_error {cls bits : Byte} {en : Bool} {s : State} {cause : Cause} (r : List Op)
    (h : flagShadow s.cfg.hd s.shadow cls bits en = .error cause) :
    settle (.flag cls bits en :: r) s = { s.flagFault cause with todo := [] }.finish := by
  simp [settle, h]

theorem runOps_flag_error {cls bits : Byte} {en : Bool} {s : State} {cause : Cause} (r : List Op)
    (h : flagShadow s.cfg.hd s.shadow cls bits en = .error cause) :
    runOps (.flag cls bits en :: r) s = s.flagFault cause := by
  simp [runOps, h]

@[simp] theorem flagFault_todo (s : State) (c : Cause) : (s.flagFault c).todo = s.todo := by simp [State.flagFault]
@[simp] theorem flagFault_phase (s : State) (c : Cause) : (s.flagFault c).phase = s.phase := by simp [State.flagFault]
@[simp] theorem flagFault_pos (s : State) (c : Cause) : (s.flagFault c).pos = s.pos := by simp [State.flagFault]

/-! What `settle` and `runOps` leave -/

/-- Settling ends the request, or leaves it in flight with an event to come (R28, R29). -/
theorem settle_outcome (ops : List Op) (s : State) :
    (settle ops s).busy = false ∧ (settle ops s).active = none ∧ (settle ops s).todo = [] ∨
    (settle ops s).busy = s.busy ∧ (settle ops s).active = s.active ∧ (settle ops s).todo ≠ [] ∧
      settledOps (settle ops s).todo = true := by
  induction ops generalizing s with
  | nil => exact .inl ⟨rfl, rfl, rfl⟩
  | cons op r ih =>
    cases op with
    | emit | word | lone => exact .inr ⟨rfl, rfl, List.cons_ne_nil _ _, rfl⟩
    | phase p => exact ih { s with phase := p }
    | zeroShadow => exact ih { s with shadow := Shadow.zeroed }
    | flag cls bits en =>
      cases h : flagShadow s.cfg.hd s.shadow cls bits en with
      | error cause =>
        rw [settle_flag_error r h]
        exact .inl ⟨rfl, rfl, rfl⟩
      | ok p =>
        rw [settle_flag_ok r h]
        exact .inr ⟨rfl, rfl, List.cons_ne_nil _ _, rfl⟩

@[simp] theorem settle_pos (ops : List Op) (s : State) : (settle ops s).pos = s.pos := by
  induction ops generalizing s with
  | nil => rfl
  | cons op r ih =>
    cases op with
    | emit | word | lone => rfl
    | phase p => exact ih { s with phase := p }
    | zeroShadow => exact ih { s with shadow := Shadow.zeroed }
    | flag cls bits en =>
      cases h : flagShadow s.cfg.hd s.shadow cls bits en with
      | error cause => simp [settle_flag_error r h]
      | ok p => rw [settle_flag_ok r h]

@[simp] theorem runOps_todo (ops : List Op) (s : State) : (runOps ops s).todo = s.todo := by
  induction ops generalizing s with
  | nil => rfl
  | cons op r ih =>
    cases op with
    | emit | word | lone | phase | zeroShadow => simp [runOps, ih]
    | flag cls bits en =>
      cases h : flagShadow s.cfg.hd s.shadow cls bits en with
      | error cause => simp [runOps_flag_error r h]
      | ok p => simp [runOps_flag r h, ih]

/-- A property of the registers that every single operation of `ops` keeps, and that does not speak of BUSY, SEQ or what is
left of the request. -/
structure OpsKeep (ops : List Op) (P : State → Prop) : Prop where
  emit : ∀ s e, P s → P (s.emit e)
  phase : ∀ s p, .phase p ∈ ops → P s → P { s with phase := p }
  zeroShadow : ∀ s, P s → P { s with shadow := Shadow.zeroed }
  flag : ∀ s cls bits en sh byte, .flag cls bits en ∈ ops →
    flagShadow s.cfg.hd s.shadow cls bits en = .ok (sh, byte) → P s → P { s with shadow := sh }
  raise : ∀ s cause code, P s → P (s.raise cause code)
  seq : ∀ s busy active pos todo, P s → P { s with busy := busy, active := active, pos := pos, todo := todo }

namespace OpsKeep

variable {P : State → Prop} {op : Op} {ops : List Op} {s : State}

theorem tail (k : OpsKeep (op :: ops) P) : OpsKeep ops P where
  emit := k.emit
  phase s p hp := k.phase s p (.tail _ hp)
  zeroShadow := k.zeroShadow
  flag s cls bits en sh byte hf := k.flag s cls bits en sh byte (.tail _ hf)
  raise := k.raise
  seq := k.seq

theorem emitAll (k : OpsKeep ops P) (es : List Event) (h : P s) : P (s.emitAll es) := by
  induction es generalizing s with
  | nil => exact h
  | cons e es ih => exact ih (k.emit s e h)

theorem withTodo (k : OpsKeep ops P) (todo : List Op) (h : P s) : P { s with todo := todo } :=
  k.seq s s.busy s.active s.pos todo h

theorem finish (k : OpsKeep ops P) (h : P s) : P s.finish := k.seq s false none s.pos s.todo h

theorem begin (k : OpsKeep ops P) (code : Byte) (h : P s) : P (s.begin code) :=
  k.seq s true (some code) 0 s.todo h

theorem runOps (k : OpsKeep ops P) (h : P s) : P (runOps ops s) := by
  induction ops generalizing s with
  | nil => exact h
  | cons op r ih =>
    cases op with
    | emit e => exact ih k.tail (k.emit s e h)
    | word w => exact ih k.tail (k.emitAll _ h)
    | lone => exact ih k.tail (k.emitAll _ h)
    | phase p => exact ih k.tail (k.phase s p (.head _) h)
    | zeroShadow => exact ih k.tail (k.zeroShadow s h)
    | flag cls bits en =>
      cases hf : flagShadow s.cfg.hd s.shadow cls bits en with
      | error cause =>
        rw [runOps_flag_error r hf]
        exact k.raise s cause _ h
      | ok p =>
        rw [runOps_flag r hf]
        exact ih k.tail (k.emitAll _ (k.flag s _ _ _ _ _ (.head _) hf h))

theorem settle (k : OpsKeep ops P) (h : P s) : P (settle ops s) := by
  induction ops generalizing s with
  | nil => exact k.finish (k.withTodo [] h)
  | cons op r ih =>
    cases op with
    | emit | word | lone => exact k.withTodo _ h
    | phase p => exact ih k.tail (k.phase s p (.head _) h)
    | zeroShadow => exact ih k.tail (k.zeroShadow s h)
    | flag cls bits en =>
      cases hf : flagShadow s.cfg.hd s.shadow cls bits en with
      | error cause =>
        rw [settle_flag_error r hf]
        exact k.finish (k.withTodo [] (k.raise s cause _ h))
      | ok p =>
        rw [settle_flag_ok r hf]
        exact k.withTodo _ (k.flag s _ _ _ _ _ (.head _) hf h)

end OpsKeep

/-! The requests of the table -/

/-- The request an instruction presents (R72, R73); none for a reserved code and for an output word. -/
def requestOf : Instr → Option Req
  | .init => some reqInit
  | .sendCmd op => some (reqSendCmd op)
  | .sendData b => some (reqSendData b)
  | .writeString str => some (reqWriteString str)
  | .goto row col => some (reqGoto row col)
  | .defChar index pattern => some (reqDefChar index pattern)
  | .clear => some reqClear
  | .home => some reqHome
  | .setDisplay on => some (reqSetDisplay on)
  | .setCursor on => some (reqSetCursor on)
  | .setBlink on => some (reqSetBlink on)
  | .setBacklight on => some (reqSetBacklight on)
  | .setEntryMode inc shift => some (reqSetEntryMode inc shift)
  | .setFlag cls bits en => some (reqSetFlag cls bits en)
  | _ => none

/-- Every instruction is a request of the table, run whole or left in flight; a reserved code; or an output word, which no
host can present (R70 to R74). -/
theorem instr_cases (i : Instr) (s : State) :
    (∃ r, requestOf i = some r ∧ exec i s = runRequest r s ∧ presentInstr i s = startRequest r s) ∨
    (∃ code, exec i s = runReserved code s ∧ presentInstr i s = runReserved code s) ∨
    presentInstr i s = .refused .noRequest ∧ ((∃ w, exec i s = sendWord w s) ∨ exec i s = sendLone s) := by
  cases i with
  | init | sendCmd | sendData | writeString | goto | defChar | clear | home | setDisplay | setCursor | setBlink
  | setBacklight | setEntryMode | setFlag => exact .inl ⟨_, rfl, rfl, rfl⟩
  | reserved0E0F | reserved101F | reserved203F | reserved407F | reserved80FF => exact .inr (.inl ⟨_, rfl, rfl⟩)
  | hdClear => exact .inr (.inr ⟨rfl, .inl ⟨0x001#10, rfl⟩⟩)
  | hdHome | hdEntryMode | hdDisplayControl | hdShift | hdFunctionSet | hdSetCgram | hdSetDdram
  | hdWriteData | hdReadBfAddr | hdReadData => exact .inr (.inr ⟨rfl, .inl ⟨_, rfl⟩⟩)
  | loneNibble => exact .inr (.inr ⟨rfl, .inr rfl⟩)

/-- A reserved code does nothing or records a fault (R74, R212). -/
theorem runReserved_next {code : Byte} {s t : State} (h : runReserved code s = .next t) :
    t = s ∨ s.fault.v = false ∧ ∃ c : Cause, t = { s with fault := ⟨true, c.code, code⟩ } := by
  unfold runReserved at h
  split at h
  · simp at h
  next hcode =>
    obtain ⟨_, he⟩ | ⟨_, _, he⟩ | ⟨c, _, hv, _, he⟩ | ⟨_, ha, _⟩ :=
      runRequest_cases ⟨code, fun _ => none, fun _ => []⟩ s
    · simp [he] at h
    · exact .inl (by simpa [he] using h.symm)
    · exact .inr ⟨hv, c, by simpa [he] using h.symm⟩
    · obtain ⟨-, -, hcode', -⟩ := (accept_eq_accepted_iff _ s).1 ha
      exact absurd hcode' hcode

@[simp] theorem phasesOf_words (bs : List Byte) (f : Byte → Word10) : phasesOf (bs.map fun b => .word (f b)) = [] := by
  induction bs with
  | nil => rfl
  | cons b bs ih => exact ih

end Sys2Proof.Machine
end

section
/-! SUPPORT. Everything a step can do, said once (`step_next`), and what follows for a property of the registers that every
operation keeps. -/

namespace Sys2Proof.Machine

/-! What is left to do does not matter to the operations that replace it -/

theorem emit_withTodo (s : State) (l : List Op) (e : Event) :
    { s with todo := l }.emit e = { s.emit e with todo := l } := by
  cases e with
  | set line b => cases line <;> rfl
  | dir | dbus | wait => rfl

theorem emitAll_withTodo (s : State) (l : List Op) (es : List Event) :
    { s with todo := l }.emitAll es = { s.emitAll es with todo := l } := by
  induction es generalizing s with
  | nil => rfl
  | cons e es ih => rw [State.emitAll_cons, emit_withTodo, ih, State.emitAll_cons]

theorem flagFault_withTodo (s : State) (l : List Op) (cause : Cause) :
    { s with todo := l }.flagFault cause = { s.flagFault cause with todo := l } := by
  unfold State.flagFault State.raise
  split <;> rfl

@[simp] theorem settle_withTodo (ops l : List Op) (s : State) : settle ops { s with todo := l } = settle ops s := by
  induction ops generalizing s with
  | nil => rfl
  | cons op r ih =>
    cases op with
    | emit | word | lone => rfl
    | phase p => exact ih { s with phase := p }
    | zeroShadow => exact ih { s with shadow := Shadow.zeroed }
    | flag cls bits en =>
      cases h : flagShadow s.cfg.hd s.shadow cls bits en with
      | error cause => rw [settle_flag_error r h, settle_flag_error (s := { s with todo := l }) r h, flagFault_withTodo]
      | ok p => rw [settle_flag_ok r h, settle_flag_ok (s := { s with todo := l }) r h]

/-! The inversion of the step -/

/-- Everything but a reset that a step can make of the state `s` whose next host move is taken off. -/
inductive StepsTo (s : State) : State → Prop where
  /-- a halted block ignores a request (R214), an idle one holds its levels (R227) -/
  | stay : StepsTo s s
  /-- a request faults (R213) -/
  | fault (cause : Cause) (code : Byte) : s.fault.v = false →
      StepsTo s { s with fault := ⟨true, cause.code, code⟩ }
  /-- an accepted request is run whole (R212) -/
  | ran {i : Instr} {r : Req} : requestOf i = some r → accept r s = .accepted →
      StepsTo s (runOps (r.body s.cfg) (s.begin r.code)).finish
  /-- an accepted request is left in flight (R28) -/
  | started {i : Instr} {r : Req} : requestOf i = some r → accept r s = .accepted →
      StepsTo s (settle (r.body s.cfg) (s.begin r.code))
  /-- an output word is sent outside a request (log 9) -/
  | sent (op : Op) : op.rwLow = true → StepsTo s (s.emitAll (op.events s.cfg))
  /-- the request in flight goes on by one event (R28) -/
  | event {op : Op} {r : List Op} {e : Event} {es : List Event} : s.busy = true → s.todo = op :: r →
      op.events s.cfg = e :: es → StepsTo s (settle (es.map .emit ++ r) (s.emit e))
  /-- the request in flight goes on by one transfer (log 2) -/
  | transfer {op : Op} {r : List Op} : s.busy = true → s.todo = op :: r → op.events s.cfg ≠ [] →
      StepsTo s (settle r (s.emitAll (op.events s.cfg)))
  /-- register writes that wait before an event are done: no state of a run has any (`SettledInv`) -/
  | writes : s.busy = true → settledOps s.todo = false → StepsTo s (settle s.todo s)
  /-- the host drives a port bit of its own (R228) -/
  | port (i : Nat) (b : Bool) : s.cfg.pDataMask.testBit i = false →
      StepsTo s { s with port := s.port.set i (some b) }

/-- What an instruction can do: a request, a reserved code or an output word. -/
theorem exec_next {i : Instr} {s t : State} (h : exec i s = .next t) : StepsTo s t := by
  obtain ⟨r, hr, he, -⟩ | ⟨code, he, -⟩ | ⟨-, ⟨w, he⟩ | he⟩ := instr_cases i s
  · obtain ⟨-, hc⟩ | ⟨-, -, hc⟩ | ⟨c, -, hv, -, hc⟩ | ⟨-, ha, hc⟩ := runRequest_cases r s
    · simp [he, hc] at h
    · cases hc.symm.trans (he.symm.trans h)
      exact .stay
    · cases hc.symm.trans (he.symm.trans h)
      exact .fault c r.code hv
    · cases hc.symm.trans (he.symm.trans h)
      exact .ran hr ha
  · obtain rfl | ⟨hv, c, rfl⟩ := runReserved_next (he ▸ h)
    · exact .stay
    · exact .fault c code hv
  · obtain ⟨-, hc⟩ | ⟨-, -, hc⟩ | ⟨hw, -, hc⟩ := sendWord_cases w s
    · simp [he, hc] at h
    · simp [he, hc] at h
    · cases hc.symm.trans (he.symm.trans h)
      exact .sent (.word w) (by simp [Op.rwLow, hw])
  · rw [he, sendLone] at h
    split at h
    · simp at h
    · cases h
      exact .sent .lone rfl

/-- What a request presented without waiting can do. -/
theorem presentInstr_next {i : Instr} {s t : State} (h : presentInstr i s = .next t) : StepsTo s t := by
  obtain ⟨r, hr, -, hp⟩ | ⟨code, -, hp⟩ | ⟨hp, -⟩ := instr_cases i s
  · obtain ⟨-, hc⟩ | ⟨-, -, hc⟩ | ⟨c, -, hv, -, hc⟩ | ⟨-, ha, hc⟩ := startRequest_cases r s
    · simp [hp, hc] at h
    · cases hc.symm.trans (hp.symm.trans h)
      exact .stay
    · cases hc.symm.trans (hp.symm.trans h)
      exact .fault c r.code hv
    · cases hc.symm.trans (hp.symm.trans h)
      exact .started hr ha
  · obtain rfl | ⟨hv, c, rfl⟩ := runReserved_next (hp ▸ h)
    · exact .stay
    · exact .fault c code hv
  · simp [hp] at h

/-- The operation next in flight sends its first event, unless it is a word with RW = 1 (R28, R82). -/
theorem tickEvent_of_events {s : State} {op : Op} {r : List Op} {e : Event} {es : List Event}
    (hrw : ∀ w, op = .word w → wordRw w = false) (ht : s.todo = op :: r) (he : op.events s.cfg = e :: es) :
    tickEvent s = .next (settle (es.map .emit ++ r) (s.emit e)) := by
  cases op with
  | emit e' =>
    cases he
    simp [tickEvent, ht]
  | word w =>
    replace he : wordEvents s.cfg w = e :: es := he
    simp [tickEvent, ht, hrw w rfl, emitFirst, he]
  | lone =>
    replace he : loneEvents = e :: es := he
    simp [tickEvent, ht, emitFirst, he]
  | phase | zeroShadow | flag => cases he

theorem tickEvent_next {s t : State} (hb : s.busy = true) (h : tickEvent s = .next t) : StepsTo s t := by
  cases ht : s.todo with
  | nil => simp [tickEvent, ht] at h
  | cons op r =>
    cases he : op.events s.cfg with
    | cons e es =>
      have hrw : ∀ w, op = .word w → wordRw w = false := by
        rintro w rfl
        cases hw : wordRw w
        · rfl
        · simp [tickEvent, ht, hw] at h
      rw [tickEvent_of_events hrw ht he] at h
      cases h
      exact .event hb ht he
    | nil =>
      have hs : settledOps s.todo = false := by simpa [ht, he] using settledOps_cons_iff s.cfg op r
      have htick : tickEvent s = .next (settle s.todo s) := by
        cases op with
        | emit | word | lone => simp [ht, settledOps] at hs
        | phase | zeroShadow | flag => simp [tickEvent, ht]
      rw [htick] at h
      cases h
      exact .writes hb hs

theorem tickTransfer_next {s t : State} (hb : s.busy = true) (h : tickTransfer s = .next t) : StepsTo s t := by
  cases ht : s.todo with
  | nil => simp [tickTransfer, ht] at h
  | cons op r =>
    have hsettle (es : List Event) : settle r ({ s with todo := r }.emitAll es) = settle r (s.emitAll es) := by
      rw [emitAll_withTodo, settle_withTodo]
    cases op with
    | emit e =>
      simp only [tickTransfer, ht] at h
      cases h
      exact .transfer hb ht ((settledOps_cons_iff _ _ r).1 rfl)
    | word w =>
      obtain ⟨-, hc⟩ | ⟨-, -, hc⟩ | ⟨-, -, hc⟩ := sendWord_cases w { s with todo := r }
      · simp [tickTransfer, ht, hc, andSettle] at h
      · simp [tickTransfer, ht, hc, andSettle] at h
      · simp only [tickTransfer, ht, hc, andSettle, hsettle] at h
        cases h
        exact .transfer hb ht ((settledOps_cons_iff _ _ r).1 rfl)
    | lone =>
      simp only [tickTransfer, ht, sendLone] at h
      split at h
      · simp [andSettle] at h
      · simp only [andSettle, hsettle] at h
        cases h
        exact .transfer (op := .lone) hb ht ((settledOps_cons_iff _ _ r).1 rfl)
    | phase | zeroShadow | flag =>
      simp only [tickTransfer, ht] at h
      rw [← ht] at h
      cases h
      exact .writes hb (by simp [ht, settledOps])

/-- A host's move that is no reset. -/
theorem hostAct_next {a : HostAct} {s t : State} (ha : a ≠ .reset) (h : hostAct a s = .next t) : StepsTo s t := by
  cases a with
  | call f =>
    cases hd : decode (.request f) with
    | ok i => exact exec_next (i := i) (by simpa only [hostAct, hd] using h)
    | error e => simp [hostAct, hd] at h
  | present f =>
    cases hd : decode (.request f) with
    | ok i => exact presentInstr_next (i := i) (by simpa only [hostAct, hd] using h)
    | error e => simp [hostAct, hd] at h
  | event =>
    cases hb : s.busy
    · simp only [hostAct, hb] at h
      cases h
      exact .stay
    · exact tickEvent_next hb (by simpa [hostAct, hb] using h)
  | transfer =>
    cases hb : s.busy
    · simp only [hostAct, hb] at h
      cases h
      exact .stay
    · exact tickTransfer_next hb (by simpa [hostAct, hb] using h)
  | portWrite i b =>
    simp only [hostAct, writePort] at h
    split at h
    · simp at h
    next hmask =>
      split at h
      · simp at h
      · cases h
        exact .port i b (by simpa using hmask)
  | reset => exact absurd rfl ha

/-- Everything a step can do (R228, R28, R240, R241): only a legal configuration steps; the move is a reset, or the step is one
of `StepsTo`. -/
theorem step_next {s t : State} (h : step s = .next t) :
    s.cfg.legal = true ∧ ∃ acts, s.noReset = false ∧ t = resetState { s with acts := acts } ∨
      StepsTo { s with acts := acts } t := by
  obtain ⟨hl, ⟨ha, hn⟩ | ⟨a, rest, ha, hm⟩⟩ := step_next_cases h
  · have hs : { s with acts := [] } = s := by rw [← ha]
    refine ⟨hl, [], .inr ?_⟩
    rw [hs]
    unfold noAct at hn
    split at hn
    · exact tickEvent_next ‹_› hn
    · cases hn
      exact .stay
  · refine ⟨hl, rest, ?_⟩
    by_cases hr : a = .reset
    · subst hr
      cases hm
      exact .inl ⟨by simp [State.noReset, ha], rfl⟩
    · exact .inr (hostAct_next hr hm)

/-- A property that every operation and the host's own port writes keep is kept by every step but a reset. -/
theorem StepsTo.keeps {P : State → Prop} (k : ∀ ops, OpsKeep ops P)
    (hport : ∀ s port, P s → P { s with port := port }) {s t : State} (h : StepsTo s t) (hs : P s) : P t := by
  cases h with
  | stay => exact hs
  | fault c code hv => exact raise_of_noFault hv c code ▸ (k []).raise s c code hs
  | ran => exact (k []).finish ((k _).runOps ((k []).begin _ hs))
  | started => exact (k _).settle ((k []).begin _ hs)
  | sent op => exact (k []).emitAll _ hs
  | event => exact (k _).settle ((k []).emit _ _ hs)
  | transfer => exact (k _).settle ((k []).emitAll _ hs)
  | writes => exact (k _).settle hs
  | port i b => exact hport s _ hs

end Sys2Proof.Machine
end

section
/-! PROOF. What every step keeps: SEQ with BUSY, the settled remainder, PHASE, SHADOW, FAULT, the configuration and TRACE. -/

namespace Sys2Proof.Machine

/-! An accepted request finds the block idle (R212) -/

theorem accept_notBusy {r : Req} {s : State} (h : accept r s = .accepted) : s.busy = false := by
  obtain ⟨-, hbusy, -⟩ := (accept_eq_accepted_iff r s).1 h
  exact hbusy

theorem accept_phase {r : Req} {s : State} (h : accept r s = .accepted) : checkPhase r.code s.phase = none := by
  obtain ⟨-, -, -, hphase, -⟩ := (accept_eq_accepted_iff r s).1 h
  exact hphase

theorem accept_own {r : Req} {s : State} (h : accept r s = .accepted) : r.own s = none := by
  obtain ⟨-, -, -, -, hown⟩ := (accept_eq_accepted_iff r s).1 h
  exact hown

/-! BUSY with SEQ.ACTIVE (R28, R29) -/

/-- A block that was busy and settles is idle, or still busy with its request. -/
theorem busyInv_settle {s : State} (hb : s.busy = true) (ha : s.active.isSome = true) (ops : List Op) :
    BusyInv (settle ops s) := by
  obtain ⟨hbusy, hactive, htodo⟩ | ⟨hbusy, hactive, -, -⟩ := settle_outcome ops s
  · exact ⟨by simp [hbusy, hactive], fun _ => htodo⟩
  · exact ⟨by rw [hbusy, hactive, hb, ha], fun h => by simp [hbusy, hb] at h⟩

theorem StepsTo.busyInv {s t : State} (h : StepsTo s t) (hs : BusyInv s) : BusyInv t := by
  have active (hb : s.busy = true) : s.active.isSome = true := hs.active ▸ hb
  cases h with
  | stay => exact hs
  | fault => exact ⟨hs.active, hs.todo⟩
  | ran _ ha => exact ⟨rfl, fun _ => by simp [hs.todo (accept_notBusy ha)]⟩
  | started => exact busyInv_settle rfl rfl _
  | sent => exact ⟨by simpa using hs.active, by simpa using hs.todo⟩
  | event hb => exact busyInv_settle (by simp [hb]) (by simp [active hb]) _
  | transfer hb => exact busyInv_settle (by simp [hb]) (by simp [active hb]) _
  | writes hb => exact busyInv_settle hb (active hb) _
  | port => exact ⟨hs.active, hs.todo⟩

/-- Settles O36: whatever a step does, it ends in `settle` or in an idle block. -/
theorem stepKeepsBusyWithActive : Obligations.StepKeepsBusyWithActive := by
  intro s t hs h
  obtain ⟨-, acts, ⟨-, rfl⟩ | hstep⟩ := step_next h
  · exact ⟨rfl, fun _ => rfl⟩
  · exact hstep.busyInv ⟨hs.active, hs.todo⟩

/-! The settled remainder (R28, R131, R161) -/

theorem settledInv_settle {s : State} (hb : s.busy = true) (ops : List Op) : SettledInv (settle ops s) := by
  obtain ⟨hbusy, -, htodo⟩ | ⟨hbusy, -, hmore, hsettled⟩ := settle_outcome ops s
  · exact ⟨by simp [htodo, settledOps], by simp [hbusy], fun _ => htodo⟩
  · exact ⟨hsettled, fun _ => hmore, by simp [hbusy, hb]⟩

theorem StepsTo.settledInv {s t : State} (h : StepsTo s t) (hs : SettledInv s) : SettledInv t := by
  cases h with
  | stay => exact hs
  | fault => exact ⟨hs.settled, hs.more, hs.idle⟩
  | ran _ ha =>
    have htodo : s.todo = [] := hs.idle (accept_notBusy ha)
    exact ⟨by simp [htodo, settledOps], by simp, by simp [htodo]⟩
  | started => exact settledInv_settle rfl _
  | sent => exact ⟨by simpa using hs.settled, by simpa using hs.more, by simpa using hs.idle⟩
  | event hb => exact settledInv_settle (by simp [hb]) _
  | transfer hb => exact settledInv_settle (by simp [hb]) _
  | writes hb => exact settledInv_settle hb _
  | port => exact ⟨hs.settled, hs.more, hs.idle⟩

/-- Settles O37: `settle` stops at an event or with nothing left. -/
theorem stepKeepsSettled : Obligations.StepKeepsSettled := by
  intro s t hs h
  obtain ⟨-, acts, ⟨-, rfl⟩ | hstep⟩ := step_next h
  · exact ⟨rfl, nofun, fun _ => rfl⟩
  · exact hstep.settledInv ⟨hs.settled, hs.more, hs.idle⟩

/-! PHASE (R27) -/

/-- Phases that rise strictly and are at most 9. -/
def PhasesRise (l : List (BitVec 4)) : Prop :=
  l.Pairwise (fun p q => p.toNat < q.toNat) ∧ ∀ p ∈ l, p.toNat ≤ 9

theorem PhaseInv.phasesRise {s : State} (h : PhaseInv s) : PhasesRise (s.phase :: phasesOf s.todo) := ⟨h.rises, h.top⟩

theorem PhasesRise.sublist {l m : List (BitVec 4)} (h : PhasesRise m) (hl : l.Sublist m) : PhasesRise l :=
  ⟨h.1.sublist hl, fun p hp => h.2 p (hl.subset hp)⟩

theorem PhasesRise.head_le {p q : BitVec 4} {l : List (BitVec 4)} (h : PhasesRise (p :: l)) (hq : q ∈ p :: l) :
    p.toNat ≤ q.toNat := by
  rcases List.mem_cons.1 hq with rfl | hq
  · exact Nat.le_refl _
  · exact Nat.le_of_lt (List.rel_of_pairwise_cons h.1 hq)

theorem phasesOf_append (a b : List Op) : phasesOf (a ++ b) = phasesOf a ++ phasesOf b := by
  induction a with
  | nil => rfl
  | cons op a ih =>
    cases op with
    | phase p => exact congrArg (p :: ·) ih
    | emit | word | lone | zeroShadow | flag => exact ih

@[simp] theorem phasesOf_flagOps (calls : List FlagCall) : phasesOf (flagOps calls) = [] := by
  induction calls with
  | nil => rfl
  | cons f fs ih => exact ih

theorem phase_mem_phasesOf {p : BitVec 4} {ops : List Op} (h : .phase p ∈ ops) : p ∈ phasesOf ops := by
  obtain ⟨a, b, rfl⟩ := List.append_of_mem h
  simp [phasesOf_append, phasesOf]

/-- INIT writes the phases 1 to 9 in order (R161). -/
theorem phasesOf_initBody (c : Cfg) : phasesOf (initBody c) = [1#4, 2#4, 3#4, 4#4, 5#4, 6#4, 7#4, 8#4, 9#4] := by
  have hlight : phasesOf (if c.pBacklight then [.emit (.set .bl (blLevel c true))] else []) = [] := by split <;> rfl
  simp [initBody, phasesOf_append, phasesOf, hlight]

/-- Only INIT writes PHASE (R27). -/
theorem request_phases {i : Instr} {r : Req} (h : requestOf i = some r) (c : Cfg) :
    r = reqInit ∨ phasesOf (r.body c) = [] := by
  cases i with
  | init => exact .inl (by cases h; rfl)
  | writeString str => cases h; exact .inr (phasesOf_words str dataWord)
  | defChar index pattern => cases h; exact .inr (phasesOf_words pattern dataWord)
  | sendCmd | sendData | goto | clear | home | setDisplay | setCursor | setBlink | setBacklight | setEntryMode
  | setFlag => cases h; exact .inr rfl
  | _ => cases h

/-- An accepted request goes on from the block's PHASE: INIT from 0, every other one leaves it (R160, R173). -/
theorem accepted_phasesRise {i : Instr} {r : Req} {s : State} (hr : requestOf i = some r) (ha : accept r s = .accepted)
    (hs : PhaseInv s) : PhasesRise (s.phase :: phasesOf (r.body s.cfg)) := by
  obtain rfl | hbody := request_phases hr s.cfg
  · have hphase : s.phase = 0#4 := by simpa [checkPhase, reqInit] using accept_phase ha
    rw [hphase, reqInit, phasesOf_initBody]
    exact ⟨by decide, by decide⟩
  · rw [hbody]
    exact hs.phasesRise.sublist (by simp)

/-- Settling writes the first of the phases still to come, and leaves the others. -/
theorem settle_phases_sublist (ops : List Op) (s : State) :
    ((settle ops s).phase :: phasesOf (settle ops s).todo).Sublist (s.phase :: phasesOf ops) := by
  induction ops generalizing s with
  | nil => exact List.Sublist.refl _
  | cons op r ih =>
    cases op with
    | emit | word | lone => exact List.Sublist.refl _
    | phase p => exact (ih { s with phase := p }).trans (List.sublist_cons_self _ _)
    | zeroShadow => exact ih { s with shadow := Shadow.zeroed }
    | flag cls bits en =>
      cases h : flagShadow s.cfg.hd s.shadow cls bits en with
      | error cause => simp [settle_flag_error r h, phasesOf]
      | ok p => rw [settle_flag_ok r h]; exact List.Sublist.refl _

/-- A request run whole ends in the phase before it or in one it writes. -/
theorem runOps_phase_mem (ops : List Op) (s : State) : (runOps ops s).phase ∈ s.phase :: phasesOf ops := by
  have keep : OpsKeep ops fun t => t.phase ∈ s.phase :: phasesOf ops :=
    { emit := fun t e h => by simpa using h
      phase := fun t p hp _ => List.mem_cons_of_mem _ (phase_mem_phasesOf hp)
      zeroShadow := fun _ h => h
      flag := fun _ _ _ _ _ _ _ _ h => h
      raise := fun t c code h => by simpa using h
      seq := fun _ _ _ _ _ h => h }
  exact keep.runOps (List.mem_cons_self ..)

theorem phaseInv_settle {s : State} {ops : List Op} (hb : s.busy = true) (h : PhasesRise (s.phase :: phasesOf ops)) :
    PhaseInv (settle ops s) ∧ s.phase.toNat ≤ (settle ops s).phase.toNat := by
  have hsub := settle_phases_sublist ops s
  obtain ⟨rises, top⟩ := h.sublist hsub
  exact ⟨⟨rises, top, (settledInv_settle hb ops).idle⟩, h.head_le (hsub.subset (List.mem_cons_self ..))⟩

theorem StepsTo.phaseInv {s t : State} (h : StepsTo s t) (hs : PhaseInv s) :
    PhaseInv t ∧ s.phase.toNat ≤ t.phase.toNat := by
  cases h with
  | stay => exact ⟨hs, Nat.le_refl _⟩
  | fault => exact ⟨⟨hs.rises, hs.top, hs.idle⟩, Nat.le_refl _⟩
  | @ran i r hr ha =>
    have hrise := accepted_phasesRise hr ha hs
    have hmem := runOps_phase_mem (r.body s.cfg) (s.begin r.code)
    have htodo : s.todo = [] := hs.idle (accept_notBusy ha)
    refine ⟨⟨?_, ?_, ?_⟩, hrise.head_le hmem⟩
    · simp [htodo, phasesOf]
    · simpa [htodo, phasesOf] using hrise.2 _ hmem
    · simp [htodo]
  | @started i r hr ha =>
    have hrise := accepted_phasesRise hr ha hs
    exact phaseInv_settle (s := s.begin r.code) rfl hrise
  | sent => exact ⟨⟨by simpa using hs.rises, by simpa using hs.top, by simpa using hs.idle⟩, by simp⟩
  | @event op r e es hb ht he =>
    have hrise : PhasesRise (s.phase :: phasesOf r) := by
      simpa [ht, phasesOf_cons_of_events (he ▸ List.cons_ne_nil e es) r] using hs.phasesRise
    simpa using phaseInv_settle (s := s.emit e) (ops := es.map .emit ++ r) (by simp [hb]) (by simpa using hrise)
  | @transfer op r hb ht he =>
    have hrise : PhasesRise (s.phase :: phasesOf r) := by
      simpa [ht, phasesOf_cons_of_events he r] using hs.phasesRise
    simpa using phaseInv_settle (s := s.emitAll (op.events s.cfg)) (ops := r) (by simp [hb]) (by simpa using hrise)
  | writes hb => exact phaseInv_settle hb hs.phasesRise
  | port => exact ⟨⟨hs.rises, hs.top, hs.idle⟩, Nat.le_refl _⟩

/-- Settles O38: PHASE and the phases to come after a step are a sublist of those before, or INIT's own 1 to 9. -/
theorem stepKeepsPhaseOrder : Obligations.StepKeepsPhaseOrder := by
  intro s t hs h
  obtain ⟨-, acts, ⟨hreset, rfl⟩ | hstep⟩ := step_next h
  · exact ⟨⟨List.pairwise_singleton _ _, by simp [resetState, State.resetWith, phasesOf], fun _ => rfl⟩,
      by simp [hreset]⟩
  · obtain ⟨hinv, hle⟩ := hstep.phaseInv ⟨hs.rises, hs.top, hs.idle⟩
    exact ⟨hinv, fun _ => hle⟩

/-! SHADOW (R24, R25) -/

/-- Every bit of `v` lies in the mask `m`. -/
theorem and_not_eq_zero_iff {v m : Byte} :
    v &&& ~~~m = 0#8 ↔ ∀ j < 8, v.getLsbD j = true → m.getLsbD j = true := by
  constructor
  · intro h j hj hv
    have hbit := congrArg (·.getLsbD j) h
    simpa [hj, hv] using hbit
  · intro h
    ext j hj
    have hbit := h j hj
    simp only [BitVec.getLsbD_eq_getElem hj] at hbit
    cases hv : v[j]
    · simp [hv]
    · simp [hv, hbit hv]

/-- Setting or clearing flags of a class leaves a slot with flags of that class alone (R131). -/
theorem toggled_own {v bits m : Byte} (hv : v &&& ~~~m = 0#8) (hbits : bits &&& ~~~m = 0#8) (en : Bool) :
    toggled v bits en &&& ~~~m = 0#8 := by
  rw [and_not_eq_zero_iff] at *
  intro j hj ht
  cases en with
  | true =>
    simp only [toggled, if_true, BitVec.getLsbD_or, Bool.or_eq_true] at ht
    exact ht.elim (hv j hj) (hbits j hj)
  | false =>
    simp only [toggled, Bool.false_eq_true, if_false, BitVec.getLsbD_and, Bool.and_eq_true] at ht
    exact hv j hj ht.1

/-- A FLAG of a class's own flags keeps every slot to its class (R131). -/
theorem flagShadow_slotOwn {h : HDTable} {sh sh' : Shadow} {cls bits byte : Byte} {en : Bool}
    (hown : (Op.flag cls bits en).flagOwn h) (hf : flagShadow h sh cls bits en = .ok (sh', byte))
    (hs : ∀ i, slotOwn h sh i) (i : InstrClass) : slotOwn h sh' i := by
  obtain ⟨j, v, hj, hv, rfl⟩ := flagShadow_ok hf
  intro w hw
  by_cases hij : i = j
  · subst hij
    rw [Shadow.get_set_self] at hw
    cases hw
    exact toggled_own (hs i v hv) (hown i hj) en
  · rw [Shadow.get_set_ne _ _ hij] at hw
    exact hs i w hw

/-- The flags of the slots, with the HD table they are read by. -/
def SlotsOwn (h : HDTable) (s : State) : Prop := s.cfg.hd = h ∧ ∀ i, slotOwn h s.shadow i

theorem opsKeep_slotsOwn {h : HDTable} {ops : List Op} (hops : ∀ op ∈ ops, op.flagOwn h) : OpsKeep ops (SlotsOwn h) where
  emit s e hs := by simpa [SlotsOwn] using hs
  phase _ _ _ hs := hs
  zeroShadow _ hs := ⟨hs.1, fun i v hv => by cases (Shadow.get_zeroed i).symm.trans hv; exact BitVec.zero_and⟩
  flag s cls bits en sh byte hmem hf hs := by
    obtain ⟨rfl, hslots⟩ := hs
    exact ⟨rfl, flagShadow_slotOwn (hops _ hmem) hf hslots⟩
  raise s c code hs := by simpa [SlotsOwn] using hs
  seq _ _ _ _ _ hs := hs

theorem mem_settle_todo {op : Op} {ops : List Op} {s : State} (h : op ∈ (settle ops s).todo) :
    op ∈ ops ∨ ∃ w, op = .word w := by
  induction ops generalizing s with
  | nil => simp [settle] at h
  | cons o r ih =>
    cases o with
    | emit | word | lone => exact .inl h
    | phase p => exact (ih (s := { s with phase := p }) h).imp_left (.tail _)
    | zeroShadow => exact (ih (s := { s with shadow := Shadow.zeroed }) h).imp_left (.tail _)
    | flag cls bits en =>
      cases hf : flagShadow s.cfg.hd s.shadow cls bits en with
      | error cause => simp [settle_flag_error r hf] at h
      | ok p =>
        simp only [settle_flag_ok r hf, List.mem_cons] at h
        exact h.symm.imp (.tail _) fun hw => ⟨_, hw⟩

theorem shadowInv_settle {s : State} {ops : List Op} (hs : ∀ i, slotOwn s.cfg.hd s.shadow i)
    (hops : ∀ op ∈ ops, op.flagOwn s.cfg.hd) : ShadowInv (settle ops s) := by
  obtain ⟨hcfg, hslots⟩ := (opsKeep_slotsOwn hops).settle (s := s) ⟨rfl, hs⟩
  refine ⟨hcfg ▸ hslots, fun op hop => ?_⟩
  rw [hcfg]
  obtain hmem | ⟨w, rfl⟩ := mem_settle_todo hop
  · exact hops op hmem
  · trivial

/-! What a legal configuration says of the flags (R79, R80, R170) -/

theorem Cfg.legal_hd {c : Cfg} (h : c.legal = true) : c.hd.legal = true := by
  simp only [Cfg.legal, Bool.and_eq_true] at h
  exact h.2

theorem Cfg.legal_port {c : Cfg} (h : c.legal = true) :
    c.pDataMask = 0xF <<< c.pDataShift ∧ c.pDataShift + 4 ≤ c.pPortWidth := by
  simp only [Cfg.legal, Cfg.legalPort, Bool.and_eq_true, beq_iff_eq, decide_eq_true_eq] at h
  obtain ⟨⟨⟨⟨⟨-, hport⟩, -⟩, -⟩, -⟩, -⟩ := h
  exact hport

theorem Cfg.legal_schedule {c : Cfg} (h : c.legal = true) :
    legalStep c.hd.functionSet c.hd.fsN (c.hd.fsDl ||| c.hd.fsF) c.initSchedule.step4 = true ∧
    legalStep c.hd.displayControl c.hd.dcD (c.hd.dcC ||| c.hd.dcB) c.initSchedule.step6 = true ∧
    legalStep c.hd.entryMode c.hd.emId c.hd.emS c.initSchedule.step7 = true := by
  simp only [Cfg.legal, Cfg.legalSchedule, Bool.and_eq_true] at h
  obtain ⟨⟨⟨-, ⟨h4, h6⟩, h7⟩, -⟩, -⟩ := h
  exact ⟨h4, h6, h7⟩

/-- The class opcodes of a legal table (R80). -/
theorem HDTable.legal_opcode {h : HDTable} (hl : h.legal = true) (i : InstrClass) :
    i.opcode h = 1#8 <<< (i.slot + 2) := by
  simp only [HDTable.legal, Bool.and_eq_true, beq_iff_eq] at hl
  obtain ⟨⟨⟨⟨⟨⟨⟨⟨⟨h0, h1⟩, h2⟩, h3⟩, h4⟩, h5⟩, -⟩, -⟩, -⟩, -⟩ := hl
  cases i <;> assumption

/-- Each class of a legal table is found by its opcode (R23). -/
theorem slotOf_opcode {h : HDTable} (hl : h.legal = true) (i : InstrClass) : slotOf h (i.opcode h) = some i := by
  have opcode := HDTable.legal_opcode hl
  have h0 : h.entryMode = 0x04#8 := opcode .entryMode
  have h1 : h.displayControl = 0x08#8 := opcode .displayControl
  have h2 : h.shift = 0x10#8 := opcode .cursorDisplayShift
  have h3 : h.functionSet = 0x20#8 := opcode .functionSet
  have h4 : h.setCgram = 0x40#8 := opcode .setCgramAddr
  have h5 : h.setDdram = 0x80#8 := opcode .setDdramAddr
  rw [slotOf, h0, h1, h2, h3, h4, h5, opcode]
  cases i <;> rfl

theorem flagOwn_opcode {h : HDTable} (hl : h.legal = true) {i : InstrClass} {bits : Byte}
    (hbits : bits &&& ~~~(i.mask h) = 0#8) (en : Bool) : (Op.flag (i.opcode h) bits en).flagOwn h := by
  intro j hj
  rw [slotOf_opcode hl i] at hj
  cases hj
  exact hbits

/-- The calls of a legal schedule step are of its class and within its target flags (R170). -/
theorem legalStep_call {cls on off : Byte} {fs : List FlagCall} (h : legalStep cls on off fs = true) {f : FlagCall}
    (hf : f ∈ fs) : f.cls = cls ∧ f.bits &&& ~~~(on ||| off) = 0#8 := by
  simp only [legalStep, Bool.and_eq_true, List.all_eq_true] at h
  have hcall := h.1 f hf
  simp only [FlagCall.legalFor, Bool.and_eq_true, beq_iff_eq] at hcall
  obtain ⟨⟨⟨hcls, -⟩, hbits⟩, -⟩ := hcall
  exact ⟨hcls, hbits⟩

/-- The flag calls of a schedule step whose target flags are those of class `i` (R170, R79). -/
theorem flagOps_own {h : HDTable} (hl : h.legal = true) (i : InstrClass) {on off : Byte} {fs : List FlagCall}
    (hstep : legalStep (i.opcode h) on off fs = true) (hmask : on ||| off = i.mask h) :
    ∀ op ∈ flagOps fs, op.flagOwn h := by
  intro op hop
  obtain ⟨⟨cls, bits, en⟩, hf, rfl⟩ := List.mem_map.1 hop
  obtain ⟨rfl, hbits⟩ := legalStep_call hstep hf
  exact flagOwn_opcode hl (hmask ▸ hbits) en

/-- INIT's flag calls are those of the schedule (R165, R167, R168). -/
theorem flag_mem_initBody {c : Cfg} {cls bits : Byte} {en : Bool} (h : .flag cls bits en ∈ initBody c) :
    .flag cls bits en ∈ flagOps c.initSchedule.step4 ∨ .flag cls bits en ∈ flagOps c.initSchedule.step6 ∨
      .flag cls bits en ∈ flagOps c.initSchedule.step7 := by
  simpa [initBody, or_assoc] using h

/-- The flag calls of INIT are within their classes' flags, under every legal schedule (R170). -/
theorem initBody_flagOwn {c : Cfg} (hl : c.legal = true) : ∀ op ∈ initBody c, op.flagOwn c.hd := by
  have hhd := Cfg.legal_hd hl
  obtain ⟨h4, h6, h7⟩ := Cfg.legal_schedule hl
  have own4 := flagOps_own hhd .functionSet h4 (by simp only [InstrClass.mask]; ac_rfl)
  have own6 := flagOps_own hhd .displayControl h6 (by simp only [InstrClass.mask]; ac_rfl)
  have own7 := flagOps_own hhd .entryMode h7 rfl
  intro op hop
  cases op with
  | flag cls bits en =>
    obtain h | h | h := flag_mem_initBody hop
    · exact own4 _ h
    · exact own6 _ h
    · exact own7 _ h
  | emit | word | lone | phase | zeroShadow => trivial

/-- The flags that the flag requests name are their class's own (R135 to R138, R79). -/
theorem namedFlags_own (h : HDTable) :
    (h.dcD &&& ~~~(InstrClass.displayControl.mask h) = 0#8 ∧ h.dcC &&& ~~~(InstrClass.displayControl.mask h) = 0#8 ∧
      h.dcB &&& ~~~(InstrClass.displayControl.mask h) = 0#8) ∧
    h.emId &&& ~~~(InstrClass.entryMode.mask h) = 0#8 ∧ h.emS &&& ~~~(InstrClass.entryMode.mask h) = 0#8 := by
  simp only [and_not_eq_zero_iff, InstrClass.mask, BitVec.getLsbD_or, Bool.or_eq_true]
  exact ⟨⟨fun _ _ hb => .inl (.inl hb), fun _ _ hb => .inl (.inr hb), fun _ _ hb => .inr hb⟩,
    fun _ _ hb => .inl hb, fun _ _ hb => .inr hb⟩

/-- The flag calls of an accepted request are within their classes' flags: by its own checks (R134), by the flag it names
(R135 to R138) or by the schedule (R170). -/
theorem request_flagOwn {i : Instr} {r : Req} {s : State} (hr : requestOf i = some r) (hl : s.cfg.legal = true)
    (hown : r.own s = none) : ∀ op ∈ r.body s.cfg, op.flagOwn s.cfg.hd := by
  have hhd := Cfg.legal_hd hl
  obtain ⟨⟨hD, hC, hB⟩, hId, hS⟩ := namedFlags_own s.cfg.hd
  have one (i : InstrClass) {bits : Byte} (en : Bool) (hbits : bits &&& ~~~(i.mask s.cfg.hd) = 0#8) :
      ∀ op ∈ [Op.flag (i.opcode s.cfg.hd) bits en], op.flagOwn s.cfg.hd :=
    List.forall_mem_singleton.2 (flagOwn_opcode hhd hbits en)
  cases i with
  | init => cases hr; exact initBody_flagOwn hl
  | sendCmd | sendData | goto | clear | home | setBacklight =>
    cases hr; exact List.forall_mem_singleton.2 trivial
  | writeString str => cases hr; simp [reqWriteString, Op.flagOwn]
  | defChar index pattern => cases hr; simp [reqDefChar, Op.flagOwn]
  | setDisplay on => cases hr; exact one .displayControl on hD
  | setCursor on => cases hr; exact one .displayControl on hC
  | setBlink on => cases hr; exact one .displayControl on hB
  | setEntryMode inc shift =>
    cases hr
    exact List.forall_mem_cons.2 ⟨flagOwn_opcode (i := .entryMode) hhd hId inc, one .entryMode shift hS⟩
  | setFlag cls bits en =>
    cases hr
    refine List.forall_mem_singleton.2 fun j hj => ?_
    simp only [reqSetFlag, checkFlag, hj] at hown
    split at hown
    · simp at hown
    · split at hown
      · simp at hown
      · exact not_not.1 ‹_›
  | _ => cases hr

theorem StepsTo.shadowInv {s t : State} (h : StepsTo s t) (hl : s.cfg.legal = true) (hs : ShadowInv s) :
    ShadowInv t := by
  obtain ⟨slots, todo⟩ := hs
  cases h with
  | stay => exact ⟨slots, todo⟩
  | fault => exact ⟨slots, todo⟩
  | @ran i r hr ha =>
    obtain ⟨hcfg, hslots⟩ := (opsKeep_slotsOwn (request_flagOwn hr hl (accept_own ha))).runOps (s := s.begin r.code)
      ⟨rfl, slots⟩
    exact ⟨fun i => by simpa using hslots i, by simpa using todo⟩
  | started hr ha => exact shadowInv_settle (s := s.begin _) slots (request_flagOwn hr hl (accept_own ha))
  | sent => exact ⟨by simpa using slots, by simpa using todo⟩
  | @event op r e es _ ht =>
    rw [ht, List.forall_mem_cons] at todo
    refine shadowInv_settle (by simpa using slots) ?_
    simpa [or_imp, forall_and, Op.flagOwn] using todo.2
  | transfer _ ht =>
    rw [ht, List.forall_mem_cons] at todo
    exact shadowInv_settle (by simpa using slots) (by simpa using todo.2)
  | writes => exact shadowInv_settle slots todo
  | port => exact ⟨slots, todo⟩

/-- An address class has no flags, so its slot holds 0 or nothing (R24, R25). -/
theorem slotOwn_zero {h : HDTable} {sh : Shadow} {i : InstrClass} (hi : i.isToggle = false) (hs : slotOwn h sh i)
    {v : Byte} (hv : sh.get i = some v) : v = 0#8 := by
  have hmask : i.mask h = 0#8 := by
    cases i with
    | setCgramAddr | setDdramAddr => rfl
    | entryMode | displayControl | cursorDisplayShift | functionSet => cases hi
  have hown := hs v hv
  rwa [hmask, BitVec.not_zero, BitVec.and_allOnes] at hown

/-- Settles O40: FLAG keeps a slot to its class, and every accepted request's flag calls are its class's own. -/
theorem stepKeepsShadowOwnFlags : Obligations.StepKeepsShadowOwnFlags := by
  intro s t hs h
  have ht : ShadowInv t := by
    obtain ⟨hl, acts, ⟨-, rfl⟩ | hstep⟩ := step_next h
    · exact ⟨fun i v hv => (nomatch (Shadow.get_unwritten i).symm.trans hv), nofun⟩
    · exact hstep.shadowInv hl ⟨hs.slots, hs.todo⟩
  exact ⟨ht, fun v hv => slotOwn_zero rfl (ht.slots .setCgramAddr) hv,
    fun v hv => slotOwn_zero rfl (ht.slots .setDdramAddr) hv⟩

/-! FAULT (R30, R211) -/

theorem Cause.code_range (c : Cause) : 1 ≤ c.code.toNat ∧ c.code.toNat ≤ 12 := by cases c <;> decide

theorem FaultInv.congr {s t : State} (h : t.fault = s.fault) (hs : FaultInv s) : FaultInv t :=
  ⟨h ▸ hs.none, h ▸ hs.some⟩

theorem FaultInv.raise {s : State} (hs : FaultInv s) (c : Cause) (code : Byte) : FaultInv (s.raise c code) := by
  cases hv : s.fault.v
  · rw [raise_of_noFault hv]
    exact ⟨nofun, fun _ => c.code_range⟩
  · rw [raise_of_fault hv]
    exact hs

theorem opsKeep_faultInv (ops : List Op) : OpsKeep ops FaultInv where
  emit s e hs := hs.congr (s.emit_fault e)
  phase _ _ _ hs := ⟨hs.none, hs.some⟩
  zeroShadow _ hs := ⟨hs.none, hs.some⟩
  flag _ _ _ _ _ _ _ _ hs := ⟨hs.none, hs.some⟩
  raise _ c code hs := hs.raise c code
  seq _ _ _ _ _ hs := ⟨hs.none, hs.some⟩

/-- Settles O41: FAULT is written only by `raise`, with a cause of R211, and by reset. -/
theorem stepKeepsFaultRegister : Obligations.StepKeepsFaultRegister := by
  intro s t hs h
  obtain ⟨-, acts, ⟨-, rfl⟩ | hstep⟩ := step_next h
  · exact ⟨fun _ => ⟨rfl, rfl⟩, nofun⟩
  · exact hstep.keeps opsKeep_faultInv (fun _ _ hs => ⟨hs.none, hs.some⟩) (⟨hs.none, hs.some⟩)

/-! The configuration (R34) and TRACE (R35) -/

theorem opsKeep_cfg (c : Cfg) (ops : List Op) : OpsKeep ops (·.cfg = c) where
  emit s e hs := (s.emit_cfg e).trans hs
  phase _ _ _ hs := hs
  zeroShadow _ hs := hs
  flag _ _ _ _ _ _ _ _ hs := hs
  raise s cause code hs := (s.raise_cfg cause code).trans hs
  seq _ _ _ _ _ hs := hs

/-- Settles O4: no operation writes the configuration, and reset builds the block with the one it has. -/
theorem stepKeepsTheConfiguration : Obligations.StepKeepsTheConfiguration := by
  intro s t h
  obtain ⟨-, acts, ⟨-, rfl⟩ | hstep⟩ := step_next h
  · rfl
  · exact hstep.keeps (opsKeep_cfg s.cfg) (fun _ _ hs => hs) rfl

theorem opsKeep_trace_prefix (l : List Event) (ops : List Op) : OpsKeep ops (l <+: ·.trace) where
  emit s e hs := by
    rw [State.emit_trace]
    exact hs.trans (List.prefix_append _ _)
  phase _ _ _ hs := hs
  zeroShadow _ hs := hs
  flag _ _ _ _ _ _ _ _ hs := hs
  raise s cause code hs := by rwa [State.raise_trace]
  seq _ _ _ _ _ hs := hs

/-- Settles O43: TRACE is written only by `emit`, which appends, and by reset. -/
theorem traceOnlyGrows : Obligations.TraceOnlyGrows := by
  intro s t hno h
  obtain ⟨-, acts, ⟨hreset, -⟩ | hstep⟩ := step_next h
  · simp [hno] at hreset
  · exact hstep.keeps (opsKeep_trace_prefix s.trace) (fun _ _ hs => hs) (List.prefix_refl s.trace)

end Sys2Proof.Machine
end

section
/-! PROOF. Reset (R39), the port (R33), the unwritten slot (R26), and the two granularities of a run (R28). -/

namespace Sys2Proof.Machine

/-- Settles O1: the fields of `State.resetWith`, read one by one. -/
theorem resetLeavesTheStatedValues : Obligations.ResetLeavesTheStatedValues := by
  intro c
  exact ⟨Shadow.get_unwritten, rfl, rfl, rfl, rfl, rfl, rfl, rfl, rfl, rfl, rfl, rfl, rfl, rfl,
    fun b hb => List.eq_of_mem_replicate hb, rfl, rfl⟩

/-! The port (R33, R9) -/

/-- The data field of a legal port is its four bits from `P_DATA_SHIFT` (R9). -/
theorem testBit_pDataMask {c : Cfg} (h : c.legal = true) (i : Nat) :
    c.pDataMask.testBit i = decide (c.pDataShift ≤ i ∧ i < c.pDataShift + 4) := by
  rw [(Cfg.legal_port h).1, Nat.testBit_shiftLeft, show 0xF = 2 ^ 4 - 1 from rfl, Nat.testBit_two_pow_sub_one,
    Bool.decide_and]
  by_cases hi : c.pDataShift ≤ i
  · simp only [ge_iff_le, hi, decide_true, Bool.true_and, decide_eq_decide]
    omega
  · simp [hi]

theorem drivePort_getElem?_inside {c : Cfg} (h : c.legal = true) (v : Nibble) {p : List (Option Bool)} {i : Nat}
    (hlo : c.pDataShift ≤ i) (hhi : i < c.pDataShift + 4) (hi : i < p.length) :
    (drivePort c v p)[i]? = some (some (v.getLsbD (i - c.pDataShift))) := by
  rw [drivePort_getElem?, testBit_pDataMask h]
  simp [hlo, hhi, hi]

theorem drivePort_getElem?_outside {c : Cfg} (h : c.legal = true) (v : Nibble) (p : List (Option Bool)) {i : Nat}
    (hi : i < c.pDataShift ∨ c.pDataShift + 4 ≤ i) : (drivePort c v p)[i]? = p[i]? := by
  have hout : ¬(c.pDataShift ≤ i ∧ i < c.pDataShift + 4) := by omega
  simp [drivePort_getElem?, testBit_pDataMask h, hout]

theorem knownPort_getElem? {w : Nat} (n : BitVec w) {i : Nat} (hi : i < w) :
    (knownPort n)[i]? = some (some (n.getLsbD i)) := by
  simp [knownPort, hi]

@[simp] theorem knownPort_length {w : Nat} (n : BitVec w) : (knownPort n).length = w := by simp [knownPort]

/-- A bit of the masked word of R33: `v` in the data field, `n` outside. -/
theorem getLsbD_maskedWrite {c : Cfg} (h : c.legal = true) (v : Nibble) (n : BitVec c.pPortWidth) {i : Nat}
    (hi : i < c.pPortWidth) :
    (n &&& ~~~BitVec.ofNat c.pPortWidth c.pDataMask ||| v.setWidth c.pPortWidth <<< c.pDataShift).getLsbD i =
      if c.pDataShift ≤ i ∧ i < c.pDataShift + 4 then v.getLsbD (i - c.pDataShift) else n.getLsbD i := by
  have hw : i - c.pDataShift < c.pPortWidth := by omega
  simp only [BitVec.getLsbD_or, BitVec.getLsbD_and, BitVec.getLsbD_not, BitVec.getLsbD_ofNat, BitVec.getLsbD_shiftLeft,
    BitVec.getLsbD_setWidth, testBit_pDataMask h, hi, hw, decide_true, Bool.true_and]
  split
  next hin => simp [hin, Nat.not_lt.2 hin.1]
  next hout =>
    by_cases hlt : i < c.pDataShift
    · simp [hout, hlt]
    · simp [hout, BitVec.getLsbD_of_ge v (i - c.pDataShift) (by omega)]

/-- The masked write of R33 on a wholly known port word. -/
theorem drivePort_knownPort {c : Cfg} (h : c.legal = true) (v : Nibble) (n : BitVec c.pPortWidth) :
    drivePort c v (knownPort n) =
      knownPort (n &&& ~~~BitVec.ofNat c.pPortWidth c.pDataMask ||| v.setWidth c.pPortWidth <<< c.pDataShift) := by
  refine List.ext_getElem? fun i => ?_
  by_cases hi : i < c.pPortWidth
  · rw [knownPort_getElem? _ hi, getLsbD_maskedWrite h v n hi]
    split
    next hin => exact drivePort_getElem?_inside h v hin.1 hin.2 (by simpa using hi)
    next hout => rw [drivePort_getElem?_outside h v _ (by omega), knownPort_getElem? _ hi]
  · rw [List.getElem?_eq_none (by simpa using hi), List.getElem?_eq_none (by simpa using hi)]

/-- Settles O6, from the two bit lemmas and the masked write. -/
theorem dbusIsAMaskedPortWrite : Obligations.DbusIsAMaskedPortWrite := by
  intro c v h
  exact ⟨fun p i hlo hhi hi => drivePort_getElem?_inside h v hlo hhi hi,
    fun p i hi => drivePort_getElem?_outside h v p hi, drivePort_knownPort h v⟩

/-! A request whose own check fails (R212, R213) -/

/-- A runtime request of the table that fails one of its own checks in a Ready block faults with that cause. -/
theorem runRequest_own_fault (code : Byte) {r : Req} {s : State} {cause : Cause} (hr : r.code = code) (hs : s.Ready)
    (hcode : code.toNat ≤ 0x0D) (hinit : code ≠ 0#8) (hown : r.own s = some cause) :
    runRequest r s = .next (s.faulted cause.code code) := by
  subst hr
  have haccept : accept r s = .fault cause := by
    simp [accept, checkPhase, hs.noFault, hs.notBusy, hs.phase, Nat.not_lt.2 hcode, hinit, hown]
  simp [runRequest, hs.legal, haccept, raise_of_noFault hs.noFault, State.faulted]

theorem checkWritten_none {sh : Shadow} {i : InstrClass} (h : sh.get i = none) :
    checkWritten sh i = some .notReady := by
  simp [checkWritten, h]

/-- SET_FLAG's own three checks pass, and the slot's fails (R134, R26). -/
theorem checkFlag_unwritten {c : Cfg} {sh : Shadow} {i : InstrClass} {bits : Byte} {en : Bool} (hl : c.hd.legal = true)
    (ht : i.isToggle = true) (hbits : bits &&& ~~~(i.mask c.hd) = 0#8)
    (hdl : i = .functionSet → bits &&& c.hd.fsDl = 0#8) (h : sh.get i = none) :
    checkFlag c sh (i.opcode c.hd) bits en = some .notReady := by
  have hwidth : ¬(i.opcode c.hd = c.hd.functionSet ∧ en = true ∧ bits &&& c.hd.fsDl ≠ 0#8) := by
    rintro ⟨hop, -, hne⟩
    have hfs : some i = some .functionSet := by
      rw [← slotOf_opcode hl i, ← slotOf_opcode hl .functionSet]
      exact congrArg _ hop
    exact hne (hdl (Option.some.inj hfs))
  simp only [checkFlag, slotOf_opcode hl i, ht, hbits, hwidth, checkWritten_none h]
  simp

/-- Settles O34: the slot's check is the one that fails. -/
theorem unwrittenSlotFaults : Obligations.UnwrittenSlotFaults := by
  intro s on on' i bits hs
  refine ⟨fun h => ?_, fun h => ?_, fun ht hbits hdl h => ?_⟩
  · have hown : checkWritten s.shadow .displayControl = some .notReady := checkWritten_none h
    exact ⟨runRequest_own_fault 0x08#8 (r := reqSetDisplay on) rfl hs (by decide) (by decide) hown,
      runRequest_own_fault 0x09#8 (r := reqSetCursor on) rfl hs (by decide) (by decide) hown,
      runRequest_own_fault 0x0A#8 (r := reqSetBlink on) rfl hs (by decide) (by decide) hown⟩
  · have hown : checkWritten s.shadow .entryMode = some .notReady := checkWritten_none h
    exact runRequest_own_fault 0x0C#8 (r := reqSetEntryMode on on') rfl hs (by decide) (by decide) hown
  · have hown := checkFlag_unwritten (en := on) (Cfg.legal_hd hs.legal) ht hbits hdl h
    exact runRequest_own_fault 0x0D#8 (r := reqSetFlag (i.opcode s.cfg.hd) bits on) rfl hs (by decide) (by decide) hown

/-! One event a step (R28) -/

/-- A step of a request in flight, the host making no move, sends the next operation's first event (R28). -/
theorem step_inFlight {s : State} {op : Op} {r : List Op} {e : Event} {es : List Event} (hl : s.cfg.legal = true)
    (ha : s.acts = []) (hb : s.busy = true) (hrw : op.rwLow = true) (ht : s.todo = op :: r)
    (he : op.events s.cfg = e :: es) : step s = .next (settle (es.map .emit ++ r) (s.emit e)) := by
  have hword : ∀ w, op = .word w → wordRw w = false := by
    rintro w rfl
    simpa [Op.rwLow] using hrw
  rw [step_noAct hl ha, noAct, hb]
  exact tickEvent_of_events hword ht he

/-- Settles O47: what is left begins with an operation that has an event, and no word of it has RW = 1. -/
theorem oneEventPerStep : Obligations.OneEventPerStep := by
  intro s hl hsettled hrw ha hb
  cases ht : s.todo with
  | nil => exact absurd ht (hsettled.more hb)
  | cons op r =>
    have hne : op.events s.cfg ≠ [] := (settledOps_cons_iff s.cfg op r).1 (ht ▸ hsettled.settled)
    obtain ⟨e, es, he⟩ := List.exists_cons_of_ne_nil hne
    have hlow : op.rwLow = true := hrw.todo op (by simp [ht])
    exact ⟨_, e, step_inFlight hl ha hb hlow ht he, by simp, by simp⟩

/-! A request run one event a step (R28, R18) -/

theorem run_succ {s s' : State} (k : Nat) (h : step s = .next s') :
    Host.Core.run core (k + 1) s = Host.Core.run core k s' := by
  have hstep : core.step s = .next s' := h
  simp [Host.Core.run, hstep]

/-- A block whose request in flight the host lets pass event by event. -/
structure Running (s : State) : Prop where
  legal : s.cfg.legal = true
  acts : s.acts = []
  busy : s.busy = true

theorem Running.emit {s : State} (h : Running s) (e : Event) : Running (s.emit e) :=
  ⟨by simpa using h.legal, by simpa using h.acts, by simpa using h.busy⟩

theorem Running.emitAll {s : State} (h : Running s) (es : List Event) : Running (s.emitAll es) :=
  ⟨by simpa using h.legal, by simpa using h.acts, by simpa using h.busy⟩

/-- A settled operation that stands next sends its first event in one step. -/
theorem run_settle_op {s : State} {op : Op} {e : Event} {es : List Event} (hs : Running s) (hrw : op.rwLow = true)
    (he : op.events s.cfg = e :: es) (r : List Op) (k : Nat) :
    Host.Core.run core (k + 1) (settle (op :: r) s) = Host.Core.run core k (settle (es.map .emit ++ r) (s.emit e)) := by
  have hsettled := (settledOps_cons_iff s.cfg op r).2 (he ▸ List.cons_ne_nil e es)
  rw [settle_of_settled hsettled, ← settle_withTodo _ (op :: r) (s.emit e), ← emit_withTodo]
  exact run_succ k (step_inFlight hs.legal hs.acts hs.busy hrw rfl he)

theorem run_settle_emits {es : List Event} {s : State} (hs : Running s) (hrw : .set .rw true ∉ es) (r : List Op) (k : Nat) :
    Host.Core.run core (es.length + k) (settle (es.map .emit ++ r) s) = Host.Core.run core k (settle r (s.emitAll es)) := by
  induction es generalizing s with
  | nil => simp
  | cons e es ih =>
    rw [List.mem_cons, not_or] at hrw
    have hlow : (Op.emit e).rwLow = true := by simpa [Op.rwLow] using Ne.symm hrw.1
    rw [List.length_cons, Nat.add_right_comm, List.map_cons, List.cons_append,
      run_settle_op hs hlow (es := []) rfl, List.map_nil, List.nil_append, ih (hs.emit e) hrw.2, State.emitAll_cons]

theorem Op.events_rwLow {c : Cfg} {op : Op} (h : op.rwLow = true) : Event.set .rw true ∉ op.events c := by
  cases op with
  | emit e => exact fun hm => bne_iff_ne.1 h (List.mem_singleton.1 hm).symm
  | word w =>
    simp only [Op.events, wordEvents]
    split
    · simp [dataEvents, byteEvents, nibEvents]
    · simp [cmdEvents, byteEvents, nibEvents]
  | lone => simp [Op.events, loneEvents, nibEvents]
  | phase | zeroShadow | flag => exact List.not_mem_nil

/-- The operations `ops`, left in flight from `s`, end after as many steps as `t` has more events than `s`, in `t` with
nothing left to do. -/
def RunsTo (ops : List Op) (s t : State) : Prop :=
  ∃ n, t.trace.length = s.trace.length + n ∧
    Host.Core.run core n (settle ops s) = .next { t with todo := [] }.finish

/-- An operation with events takes one step for each of them. -/
theorem RunsTo.cons {op : Op} {r : List Op} {s t : State} (hs : Running s) (hrw : op.rwLow = true)
    (hne : op.events s.cfg ≠ []) (h : RunsTo r (s.emitAll (op.events s.cfg)) t) : RunsTo (op :: r) s t := by
  obtain ⟨n, hn, hrun⟩ := h
  have hlow := Op.events_rwLow (c := s.cfg) hrw
  refine ⟨(op.events s.cfg).length + n, by rw [hn]; simp [Nat.add_assoc], ?_⟩
  obtain ⟨e, es, he⟩ := List.exists_cons_of_ne_nil hne
  rw [he] at hrun hlow ⊢
  rw [List.length_cons, Nat.add_right_comm, run_settle_op hs hrw he,
    run_settle_emits (hs.emit e) (List.not_mem_of_not_mem_cons hlow)]
  exact hrun

/-- Run one event a step, the operations reach the state they reach run whole (R28). -/
theorem runsTo_runOps {ops : List Op} {s : State} (hs : Running s) (hrw : ∀ op ∈ ops, op.rwLow = true) :
    RunsTo ops s (runOps ops s) := by
  induction ops generalizing s with
  | nil => exact ⟨0, rfl, rfl⟩
  | cons op r ih =>
    obtain ⟨hop, hr⟩ := List.forall_mem_cons.1 hrw
    by_cases hne : op.events s.cfg = []
    · cases op with
      | emit | word | lone => exact absurd hne ((settledOps_cons_iff s.cfg _ r).1 rfl)
      | phase p => exact ih (s := { s with phase := p }) ⟨hs.legal, hs.acts, hs.busy⟩ hr
      | zeroShadow => exact ih (s := { s with shadow := Shadow.zeroed }) ⟨hs.legal, hs.acts, hs.busy⟩ hr
      | flag cls bits en =>
        cases hf : flagShadow s.cfg.hd s.shadow cls bits en with
        | error cause =>
          rw [runOps_flag_error r hf]
          exact ⟨0, by simp [State.flagFault], by rw [settle_flag_error r hf]; rfl⟩
        | ok p =>
          obtain ⟨sh, byte⟩ := p
          have hs' : Running { s with shadow := sh } := ⟨hs.legal, hs.acts, hs.busy⟩
          have hword : RunsTo (.word (cmdWord byte) :: r) { s with shadow := sh } (runOps (.flag cls bits en :: r) s) := by
            refine RunsTo.cons hs' (by simp [Op.rwLow]) (wordEvents_ne_nil _ _) ?_
            rw [runOps_flag r hf]
            simpa [Op.events] using ih (hs'.emitAll (cmdEvents s.cfg byte)) hr
          obtain ⟨n, hn, hrun⟩ := hword
          exact ⟨n, hn, by rw [settle_flag_ok r hf]; exact hrun⟩
    · rw [runOps_cons_of_events hne]
      exact RunsTo.cons hs hop hne (ih (hs.emitAll _) hr)

/-- No request of the table drives RW high (R82). -/
theorem request_rwLow {i : Instr} {r : Req} (h : requestOf i = some r) (c : Cfg) :
    ∀ op ∈ r.body c, op.rwLow = true := by
  cases i with
  | init =>
    cases h
    simp only [reqInit, initBody, List.forall_mem_append]
    cases c.pBacklight <;> simp [flagOps, Op.rwLow]
  | writeString str => cases h; simp [reqWriteString, Op.rwLow]
  | defChar index pattern => cases h; simp [reqDefChar, Op.rwLow]
  | sendCmd | sendData | goto | clear | home | setDisplay | setCursor | setBlink | setBacklight | setFlag =>
    cases h; exact List.forall_mem_singleton.2 (by simp [Op.rwLow])
  | setEntryMode inc shift => cases h; simp [reqSetEntryMode, Op.rwLow]
  | _ => cases h

/-- A request run whole and the same one left in flight: neither does anything, or they run the same body (R212, R28). -/
theorem runRequest_startRequest {r : Req} {s t u : State} (ht : runRequest r s = .next t)
    (hu : startRequest r s = .next u) :
    u = t ∧ t.trace = s.trace ∨
    s.cfg.legal = true ∧ t = (runOps (r.body s.cfg) (s.begin r.code)).finish ∧
      u = settle (r.body s.cfg) (s.begin r.code) := by
  cases hl : s.cfg.legal with
  | false => simp [runRequest, hl] at ht
  | true =>
    cases ha : accept r s with
    | ignored =>
      simp only [runRequest, startRequest, hl, ha] at ht hu
      cases ht
      cases hu
      exact .inl ⟨rfl, rfl⟩
    | fault c =>
      simp only [runRequest, startRequest, hl, ha] at ht hu
      cases ht
      cases hu
      exact .inl ⟨rfl, State.raise_trace s c r.code⟩
    | accepted =>
      simp only [runRequest, startRequest, hl, ha] at ht hu
      cases ht
      cases hu
      exact .inr ⟨rfl, rfl, rfl⟩

theorem run_of_trace_eq {s t : State} (h : t.trace = s.trace) :
    Host.Core.run core (t.trace.length - s.trace.length) t = .next t := by
  rw [h, Nat.sub_self]
  rfl

/-- Settles O46: a request that does nothing or faults takes no step; an accepted one runs its body event by event. -/
theorem eventStepsEqualTheWholeRequest : Obligations.EventStepsEqualTheWholeRequest := by
  intro i s t u ha htodo ht hu
  obtain ⟨r, hr, hexec, hpresent⟩ | ⟨code, hexec, hpresent⟩ | ⟨hpresent, -⟩ := instr_cases i s
  · obtain ⟨rfl, htrace⟩ | ⟨hl, rfl, rfl⟩ := runRequest_startRequest (hexec ▸ ht) (hpresent ▸ hu)
    · exact run_of_trace_eq htrace
    · have hs : Running (s.begin r.code) := ⟨hl, ha, rfl⟩
      obtain ⟨n, hn, hrun⟩ := runsTo_runOps hs (request_rwLow hr s.cfg)
      have hlen : (runOps (r.body s.cfg) (s.begin r.code)).finish.trace.length - s.trace.length = n := by
        simp only [State.finish_trace, State.begin_trace] at hn ⊢
        omega
      have hdone : { runOps (r.body s.cfg) (s.begin r.code) with todo := [] } = runOps (r.body s.cfg) (s.begin r.code) := by
        rw [← htodo, ← State.begin_todo s r.code, ← runOps_todo (r.body s.cfg)]
      rw [hlen, hrun, hdone]
  · rw [hexec] at ht
    rw [hpresent, ht] at hu
    cases hu
    obtain rfl | ⟨-, c, rfl⟩ := runReserved_next ht
    · exact run_of_trace_eq rfl
    · exact run_of_trace_eq rfl
  · simp [hpresent] at hu

end Sys2Proof.Machine
end

section
/-! PROOF. RW is never driven high by a step (R82), and what sending a controller word of the table does (R76, R78, R82). -/

namespace Sys2Proof.Machine

open Claims

/-! RW stays low (R68, R82) -/

/-- What `RwInv` says of what has been driven, and not of what is left to do. -/
structure RwLow (s : State) : Prop where
  line : s.rw ≠ some true
  trace : Event.set .rw true ∉ s.trace

theorem RwInv.rwLow {s : State} (h : RwInv s) : RwLow s := ⟨h.line, h.trace⟩

/-- RW after an event is the level that the event drives it to, or the level before. -/
theorem State.emit_rw (s : State) (e : Event) :
    (∃ b, e = .set .rw b ∧ (s.emit e).rw = some b) ∨ (s.emit e).rw = s.rw := by
  cases e with
  | set l b =>
    cases l with
    | rw => exact .inl ⟨b, rfl, rfl⟩
    | rs | en | bl => exact .inr rfl
  | dir | dbus | wait => exact .inr rfl

theorem RwLow.emit {s : State} {e : Event} (h : RwLow s) (he : e ≠ .set .rw true) : RwLow (s.emit e) where
  line := by
    obtain ⟨b, rfl, hrw⟩ | hrw := s.emit_rw e
    · simpa using he
    · exact hrw ▸ h.line
  trace := by simpa [h.trace] using he.symm

theorem RwLow.emitAll {s : State} {es : List Event} (h : RwLow s) (hes : .set .rw true ∉ es) : RwLow (s.emitAll es) := by
  induction es generalizing s with
  | nil => exact h
  | cons e es ih =>
    rw [List.mem_cons, not_or] at hes
    exact ih (h.emit (Ne.symm hes.1)) hes.2

theorem word_cmdWord_rwLow (op : Byte) : (Op.word (cmdWord op)).rwLow = true := by simp [Op.rwLow]

/-- A request run whole drives RW high only by an operation that does, since a FLAG's command does not (R131, R76). -/
theorem RwLow.runOps {s : State} {ops : List Op} (h : RwLow s) (hops : ∀ op ∈ ops, op.rwLow = true) :
    RwLow (runOps ops s) := by
  induction ops generalizing s with
  | nil => exact h
  | cons op r ih =>
    obtain ⟨hop, hr⟩ := List.forall_mem_cons.1 hops
    cases op with
    | emit | word | lone =>
      rw [runOps_cons_of_events ((settledOps_cons_iff s.cfg _ r).1 rfl)]
      exact ih (h.emitAll (Op.events_rwLow hop)) hr
    | phase p => exact ih (s := { s with phase := p }) ⟨h.line, h.trace⟩ hr
    | zeroShadow => exact ih (s := { s with shadow := Shadow.zeroed }) ⟨h.line, h.trace⟩ hr
    | flag cls bits en =>
      cases hf : flagShadow s.cfg.hd s.shadow cls bits en with
      | error cause =>
        rw [runOps_flag_error r hf]
        exact ⟨by simpa [State.flagFault] using h.line, by simpa [State.flagFault] using h.trace⟩
      | ok p =>
        obtain ⟨sh, byte⟩ := p
        have hcmd : .set .rw true ∉ cmdEvents s.cfg byte := by
          simpa [Op.events] using Op.events_rwLow (c := s.cfg) (word_cmdWord_rwLow byte)
        rw [runOps_flag r hf]
        exact ih (RwLow.emitAll (s := { s with shadow := sh }) ⟨h.line, h.trace⟩ hcmd) hr

/-- Settling drives no line; what it leaves is of the operations it began with, or a FLAG's command. -/
theorem RwLow.settle {s : State} {ops : List Op} (h : RwLow s) (hops : ∀ op ∈ ops, op.rwLow = true) :
    RwInv (settle ops s) := by
  induction ops generalizing s with
  | nil => exact ⟨h.line, h.trace, nofun⟩
  | cons op r ih =>
    have hr := (List.forall_mem_cons.1 hops).2
    cases op with
    | emit | word | lone => exact ⟨h.line, h.trace, hops⟩
    | phase p => exact ih (s := { s with phase := p }) ⟨h.line, h.trace⟩ hr
    | zeroShadow => exact ih (s := { s with shadow := Shadow.zeroed }) ⟨h.line, h.trace⟩ hr
    | flag cls bits en =>
      cases hf : flagShadow s.cfg.hd s.shadow cls bits en with
      | error cause =>
        rw [settle_flag_error r hf]
        exact ⟨by simpa [State.flagFault] using h.line, by simpa [State.flagFault] using h.trace, nofun⟩
      | ok p =>
        rw [settle_flag_ok r hf]
        exact ⟨h.line, h.trace, List.forall_mem_cons.2 ⟨word_cmdWord_rwLow _, hr⟩⟩

/-- Events still to be sent, as operations. -/
theorem emits_rwLow {es : List Event} (hes : .set .rw true ∉ es) : ∀ op ∈ es.map Op.emit, op.rwLow = true := by
  intro op hop
  obtain ⟨e, he, rfl⟩ := List.mem_map.1 hop
  exact bne_iff_ne.2 fun heq => hes (heq ▸ he)

theorem StepsTo.rwInv {s t : State} (h : StepsTo s t) (hs : RwInv s) : RwInv t := by
  have todo := hs.todo
  cases h with
  | stay => exact hs
  | fault => exact ⟨hs.line, hs.trace, todo⟩
  | @ran i r hr ha =>
    obtain ⟨line, trace⟩ := RwLow.runOps (s := s.begin r.code) ⟨hs.line, hs.trace⟩ (request_rwLow hr s.cfg)
    exact ⟨line, trace, by simpa using todo⟩
  | started hr ha => exact RwLow.settle (s := s.begin _) ⟨hs.line, hs.trace⟩ (request_rwLow hr s.cfg)
  | sent op hop =>
    obtain ⟨line, trace⟩ := hs.rwLow.emitAll (Op.events_rwLow (c := s.cfg) hop)
    exact ⟨line, trace, by simpa using todo⟩
  | @event op r e es _ ht he =>
    rw [ht, List.forall_mem_cons] at todo
    have hlow := Op.events_rwLow (c := s.cfg) todo.1
    rw [he, List.mem_cons, not_or] at hlow
    exact (hs.rwLow.emit (Ne.symm hlow.1)).settle (List.forall_mem_append.2 ⟨emits_rwLow hlow.2, todo.2⟩)
  | transfer _ ht =>
    rw [ht, List.forall_mem_cons] at todo
    exact (hs.rwLow.emitAll (Op.events_rwLow todo.1)).settle todo.2
  | writes => exact hs.rwLow.settle todo
  | port => exact ⟨hs.line, hs.trace, todo⟩

/-- Settles O39: what is in flight has RW = 0, no request has a word or event with RW = 1, and reset drives no line. -/
theorem stepNeverDrivesRwHigh : Obligations.StepNeverDrivesRwHigh := by
  intro s t hs h
  obtain ⟨-, acts, ⟨-, rfl⟩ | hstep⟩ := step_next h
  · exact ⟨nofun, nofun, nofun⟩
  · exact hstep.rwInv ⟨hs.line, hs.trace, hs.todo⟩

/-! Reserved request codes (R74) -/

/-- R212 checks for a code of the table before the phase, so a reserved one faults in every phase (R74). -/
theorem runReserved_of_idle {s : State} {code : Byte} (hs : s.Idle) (hcode : 0x0D < code.toNat) :
    runReserved code s = .next (s.faulted 2#4 code) := by
  have haccept : accept ⟨code, fun _ => none, fun _ => []⟩ s = .fault .badRequest := by
    simp [accept, hs.noFault, hs.notBusy, hcode]
  simp [runReserved, Nat.not_le.2 hcode, runRequest, hs.legal, haccept, raise_of_noFault hs.noFault, State.faulted,
    Cause.code]

/-- Settles O23: all five ranges lie above the table's last code. -/
theorem reservedCodesFault : Obligations.ReservedCodesFault := by
  intro s code hs
  have hfault (hcode : 0x0D < code.toNat) := runReserved_of_idle hs hcode
  refine ⟨?_, fun hlo _ => hfault (by omega), fun hlo _ => hfault (by omega), fun hlo _ => hfault (by omega),
    fun hlo => hfault (by omega)⟩
  rintro (rfl | rfl)
  · exact hfault (by decide)
  · exact hfault (by decide)

/-! The controller words of the table (R76, R78, R82) -/

/-- CMD's events, as the rules list them (R106, R107). -/
theorem cmdEvents_eq_cmdSent (c : Cfg) (op : Byte) : cmdEvents c op = cmdSent c op := by
  simp only [cmdEvents, cmdSent, cmdWait, List.contains_iff_mem]
  rfl

/-- DATA's events, as the rules list them (R108). -/
theorem dataEvents_eq_dataSent (b : Byte) : dataEvents b = dataSent b := rfl

/-- Sending a command word is `CMD` (R76, R106). -/
theorem sendWord_cmdWord {s : State} (hl : s.cfg.legal = true) (op : Byte) :
    sendWord (cmdWord op) s = .next (wordSent s false op) := by
  have hsend : sendWord (cmdWord op) s = .next (s.emitAll (cmdEvents s.cfg op)) := by simp [sendWord, hl]
  rw [hsend, emitAll_cmdEvents, cmdEvents_eq_cmdSent]
  rfl

/-- Sending a data word is `DATA` (R76, R108). -/
theorem sendWord_dataWord {s : State} (hl : s.cfg.legal = true) (b : Byte) :
    sendWord (dataWord b) s = .next (wordSent s true b) := by
  have hsend : sendWord (dataWord b) s = .next (s.emitAll (dataEvents b)) := by simp [sendWord, hl]
  rw [hsend, emitAll_dataEvents, dataEvents_eq_dataSent]
  rfl

theorem sendWord_of_eq_cmdWord {s : State} (hl : s.cfg.legal = true) {w : Word10} {op : Byte} (hw : w = cmdWord op) :
    sendWord w s = .next (wordSent s false op) := hw ▸ sendWord_cmdWord hl op

/-- Settles O24: the word of each row is the command word of the byte that R78's pattern and the fields make, checked on all
values of the Boolean and two-bit fields; an address keeps its value when it is widened. -/
theorem outputWordsAreSent : Obligations.OutputWordsAreSent := by
  intro s b1 b2 b3 x a6 a7 d hl
  refine ⟨sendWord_of_eq_cmdWord (w := 0x001#10) hl rfl, sendWord_of_eq_cmdWord hl ?_, sendWord_of_eq_cmdWord hl ?_,
    sendWord_of_eq_cmdWord hl ?_, sendWord_of_eq_cmdWord hl ?_, sendWord_of_eq_cmdWord hl ?_,
    sendWord_of_eq_cmdWord hl ?_, sendWord_of_eq_cmdWord hl ?_, sendWord_dataWord hl d⟩
  · decide +revert
  · decide +revert
  · decide +revert
  · decide +revert
  · decide +revert
  · simp [cmdWord, BitVec.setWidth_or]
  · simp [cmdWord, BitVec.setWidth_or]

/-- The block sends no word with RW = 1 (R82). -/
theorem sendWord_of_rwHigh {w : Word10} (h : wordRw w = true) (s : State) : sendWord w s = .refused .neverEmitted := by
  simp [sendWord, h]

/-- Settles O26: bit 8 of both words is 1. -/
theorem readWordsAreNeverEmitted : Obligations.ReadWordsAreNeverEmitted := by
  intro s x
  exact ⟨sendWord_of_rwHigh (by simp [wordRw]) s, sendWord_of_rwHigh (by simp [wordRw]) s⟩

end Sys2Proof.Machine
end

section
/-! PROOF. The bus protocol: what one event does (R100), the controller's view of a nibble and of a word (R105, R113), and the
requests over CMD and DATA (R109 to R112). -/

namespace Sys2Proof.Machine

open Claims

/-! Bus events (R100) -/

/-- Settles O5: each event's effect is its own branch of `State.drive`, after TRACE and SEQ.POS are written. -/
theorem emitHasTheListedEffect : Obligations.EmitHasTheListedEffect := by
  intro s lines b v k
  exact ⟨rfl, rfl, rfl, rfl, rfl, rfl, rfl⟩

/-! The sampling view (R105) -/

/-- The samples of a trace are those of its first part, then those of the rest from the levels the first part leaves. -/
theorem samplesFrom_append (l : Levels) (p q : List Event) :
    samplesFrom l (p ++ q) = samplesFrom l p ++ samplesFrom (l.afterAll p) q := by
  induction p generalizing l with
  | nil => rfl
  | cons e p ih =>
    have hrest : samplesFrom (l.after e) (p ++ q) = samplesFrom (l.after e) p ++ samplesFrom (l.afterAll (e :: p)) q :=
      ih (l.after e)
    simp only [List.cons_append, samplesFrom, hrest]
    split
    · rfl
    · rfl

/-- `NIB(v)` is sampled once, at its falling edge of EN, whatever EN was before (R102, R105). -/
theorem samplesFrom_nibEvents (l : Levels) (v : Nibble) : samplesFrom l (nibEvents v) = [⟨l.rs, l.rw, some v⟩] := rfl

/-- Settles O7: the trace before the nibble decides only the levels its sample is taken at. -/
theorem nibbleGivesOneSample : Obligations.NibbleGivesOneSample := by
  intro p v
  exact (samplesFrom_append Levels.start p (nibEvents v)).trans (by rw [samplesFrom_nibEvents]; rfl)

/-! The transfer log (R113) -/

/-- `NIB(v)` adds its value to the nibbles sampled since the last entry, and closes no entry. -/
theorem xferFrom_nibEvents (l : Levels) (nibs : List (Option Nibble)) (v : Nibble) (es : List Event) :
    xferFrom l nibs (nibEvents v ++ es) = xferFrom { l with dbus := some v, up := false } (nibs ++ [some v]) es := rfl

/-- The line changes and the address setup wait before a byte or the lone nibble (R106, R108, R164) sample nothing. -/
theorem xferFrom_setup (l : Levels) (nibs : List (Option Nibble)) (rs : Bool) (es : List Event) :
    xferFrom l nibs (.set .rs rs :: .set .rw false :: .wait .as :: es) =
      xferFrom { l with rs := some rs, rw := some false } nibs es := rfl

/-- A trailing wait closes the entry of the nibbles before it. -/
theorem xferFrom_trailingWait {k : Wait} (hk : k = .exec ∨ k = .long) (l : Levels) (nibs : List (Option Nibble)) :
    xferFrom l nibs [.wait k] = closeXfer l.rs nibs k := by
  obtain rfl | rfl := hk
  · exact List.append_nil _
  · exact List.append_nil _

/-- A byte is its high nibble followed by its low nibble (R104). -/
theorem nibbles_append (b : Byte) : b.extractLsb' 4 4 ++ b.extractLsb' 0 4 = b :=
  (BitVec.extractLsb'_append_extractLsb'_eq_extractLsb' rfl).trans BitVec.extractLsb'_eq_self

/-- One byte sent is one entry: RS tells a data write from a command, which keeps its trailing wait. -/
theorem xferFrom_byteSent {k : Wait} (hk : k = .exec ∨ k = .long) (l : Levels) (rs : Bool) (b : Byte) :
    xferFrom l [] (byteSent rs b k) = if rs then [.d b] else [.c b k] := by
  have hevents : byteSent rs b k = .set .rs rs :: .set .rw false :: .wait .as ::
      (nibEvents (b.extractLsb' 4 4) ++ (nibEvents (b.extractLsb' 0 4) ++ [.wait k])) := rfl
  rw [hevents, xferFrom_setup, xferFrom_nibEvents, xferFrom_nibEvents, xferFrom_trailingWait hk]
  simp [closeXfer, nibbles_append]

/-- The lone nibble of step 3 is an entry of its own kind (R164). -/
theorem xferFrom_loneEvents (l : Levels) : xferFrom l [] loneEvents = [.n 2#4] := by
  have hevents : loneEvents = .set .rs false :: .set .rw false :: .wait .as :: (nibEvents 2#4 ++ [.wait .exec]) := rfl
  rw [hevents, xferFrom_setup, xferFrom_nibEvents, xferFrom_trailingWait (.inl rfl)]
  rfl

/-- Settles O8: a command is a byte sent with RS = 0, a data write one with RS = 1. -/
theorem transferLogOfAWord : Obligations.TransferLogOfAWord := by
  intro l b
  exact ⟨xferFrom_byteSent (.inl rfl) l false b, xferFrom_byteSent (.inr rfl) l false b,
    xferFrom_byteSent (.inl rfl) l true b, xferFrom_loneEvents l⟩

/-! A runtime request that sends one word (R109 to R112, R212) -/

/-- A Ready block accepts a runtime request of the table whose own checks pass (R212). -/
theorem accept_of_ready (code : Byte) {r : Req} {s : State} (hr : r.code = code) (hs : s.Ready)
    (hcode : code.toNat ≤ 0x0D) (hinit : code ≠ 0#8) (hown : r.own s = none) : accept r s = .accepted := by
  subst hr
  have hphase : checkPhase r.code s.phase = none := by simp [checkPhase, hinit, hs.phase]
  exact (accept_eq_accepted_iff r s).2 ⟨hs.noFault, hs.notBusy, hcode, hphase, hown⟩

/-- An accepted request whose body is one command ends as the rules list it (R106, R107, R212). -/
theorem runRequest_cmd {r : Req} {s : State} {op : Byte} (hl : s.cfg.legal = true) (ha : accept r s = .accepted)
    (hbody : r.body s.cfg = [.word (cmdWord op)]) :
    runRequest r s = .next (s.sent (cmdSent s.cfg op) false (low op)) := by
  have hops : runOps [.word (cmdWord op)] (s.begin r.code) = (s.begin r.code).emitAll (cmdEvents s.cfg op) := by
    simp [runOps]
  have hlines := emitAll_cmdEvents (s.begin r.code) op
  rw [State.begin_cfg] at hlines
  rw [runRequest_accepted hl ha, hbody, hops, hlines, cmdEvents_eq_cmdSent]
  rfl

/-- An accepted request whose body is one data write ends as the rules list it (R108, R212). -/
theorem runRequest_data {r : Req} {s : State} {b : Byte} (hl : s.cfg.legal = true) (ha : accept r s = .accepted)
    (hbody : r.body s.cfg = [.word (dataWord b)]) :
    runRequest r s = .next (s.sent (dataSent b) true (low b)) := by
  have hops : runOps [.word (dataWord b)] (s.begin r.code) = (s.begin r.code).emitAll (dataEvents b) := by
    simp [runOps]
  rw [runRequest_accepted hl ha, hbody, hops, emitAll_dataEvents, dataEvents_eq_dataSent]
  rfl

/-- Settles O9: a Ready block accepts SEND_CMD, whose body is the command. -/
theorem sendCmdSendsTheByte : Obligations.SendCmdSendsTheByte := by
  intro s op hs
  exact runRequest_cmd (r := reqSendCmd op) hs.legal (accept_of_ready 0x01#8 rfl hs (by decide) (by decide) rfl) rfl

/-- Settles O10: a Ready block accepts SEND_DATA, whose body is the data write. -/
theorem sendDataSendsTheByte : Obligations.SendDataSendsTheByte := by
  intro s b hs
  exact runRequest_data (r := reqSendData b) hs.legal (accept_of_ready 0x02#8 rfl hs (by decide) (by decide) rfl) rfl

/-- Clear-display and return-home are long operations of every legal configuration (R107, R241). -/
theorem Cfg.legal_longOps {c : Cfg} (h : c.legal = true) : c.hd.clear ∈ c.pLongOps ∧ c.hd.home ∈ c.pLongOps := by
  simp only [Cfg.legal, Cfg.legalLongOps, Bool.and_eq_true, List.contains_iff_mem] at h
  obtain ⟨⟨-, hlong⟩, -⟩ := h
  exact hlong

/-- A long operation's command ends in the long wait (R107). -/
theorem cmdSent_of_mem {c : Cfg} {op : Byte} (h : op ∈ c.pLongOps) : cmdSent c op = byteSent false op .long := by
  simp [cmdSent, h]

/-- Settles O11: both are accepted requests of one command, and their bytes are long operations. -/
theorem clearAndHomeWaitLong : Obligations.ClearAndHomeWaitLong := by
  intro s hs
  obtain ⟨hclear, hhome⟩ := Cfg.legal_longOps hs.legal
  rw [← cmdSent_of_mem hclear, ← cmdSent_of_mem hhome]
  exact ⟨runRequest_cmd (r := reqClear) hs.legal (accept_of_ready 0x06#8 rfl hs (by decide) (by decide) rfl) rfl,
    runRequest_cmd (r := reqHome) hs.legal (accept_of_ready 0x07#8 rfl hs (by decide) (by decide) rfl) rfl⟩

end Sys2Proof.Machine
end

section
/-! PROOF. The flag requests and the backlight (R130 to R141): a slot under FLAG, what FLAG sends, the checks of SET_FLAG,
and which requests write SHADOW. -/

namespace Sys2Proof.Machine

open Claims

/-! A slot under FLAG (R131 to R133) -/

/-- A bit of a slot after FLAG: the flags named take the value asked for, every other bit stays (R131). -/
theorem getLsbD_flagged (v bits : Byte) (en : Bool) (k : Nat) :
    (flagged v bits en).getLsbD k = if bits.getLsbD k then en else v.getLsbD k := by
  cases hb : bits.getLsbD k with
  | true => cases en <;> simp [flagged, hb]
  | false =>
    cases en with
    | true => simp [flagged, hb]
    | false => simpa [flagged, hb] using BitVec.lt_of_getLsbD

/-- Once flags are enabled it does not matter whether they were enabled or disabled before (R133). -/
theorem flagged_flagged_on (v bits : Byte) (en : Bool) :
    flagged (flagged v bits en) bits true = flagged v bits true := by
  refine BitVec.eq_of_getLsbD_eq fun k _ => ?_
  simp only [getLsbD_flagged]
  split
  · rfl
  · rfl

/-- Enabling flags changes nothing exactly when they were all set (R133). -/
theorem flagged_on_eq_self_iff {v bits : Byte} : flagged v bits true = v ↔ v &&& bits = bits := by
  simp only [flagged, if_true, BitVec.eq_of_getElem_eq_iff, BitVec.getElem_or, BitVec.getElem_and, Bool.or_eq_left_iff_imp,
    Bool.and_eq_right_iff_imp]

@[simp] theorem Shadow.set_set (sh : Shadow) (v w : Byte) (i : InstrClass) : (sh.set v i).set w i = sh.set w i := by
  cases i <;> rfl

/-- A write leaves SHADOW as it is exactly when the slot held the value written. -/
theorem Shadow.set_eq_self_iff {sh : Shadow} {v : Byte} {i : InstrClass} (h : sh.get i = some v) (w : Byte) :
    sh.set w i = sh ↔ w = v := by
  constructor
  · intro hset
    have hget := Shadow.get_set_self sh w i
    rw [hset, h] at hget
    exact (Option.some.inj hget).symm
  · rintro rfl
    refine Shadow.ext_get fun j => ?_
    by_cases hj : j = i
    · rw [hj, Shadow.get_set_self, h]
    · exact Shadow.get_set_ne sh w hj

/-! The classes of a legal table (R19, R23, R79) -/

/-- A byte with a slot is its class's opcode (R23). -/
theorem opcode_of_slotOf {h : HDTable} {cls : Byte} {i : InstrClass} (hi : slotOf h cls = some i) : cls = i.opcode h := by
  unfold slotOf at hi
  split_ifs at hi
  all_goals cases hi
  all_goals assumption

theorem opcode_injective {h : HDTable} (hl : h.legal = true) : Function.Injective (InstrClass.opcode h) := by
  intro i j hij
  have hslot := congrArg (slotOf h) hij
  rw [slotOf_opcode hl, slotOf_opcode hl] at hslot
  exact Option.some.inj hslot

/-- A flag is a power of two (R19). -/
theorem isFlagBit_eq_twoPow {b : Byte} (h : isFlagBit b = true) : ∃ k, b = BitVec.twoPow 8 k := by
  simp only [isFlagBit, Bool.and_eq_true, bne_iff_ne, beq_iff_eq] at h
  obtain ⟨hne, hand⟩ := h
  have hpos : b.toNat ≠ 0 := fun h0 => hne (BitVec.eq_of_toNat_eq h0)
  have hpred : (b - 1#8).toNat = b.toNat - 1 := by bv_omega
  have hzero : b.toNat &&& b.toNat - 1 = 0 := by rw [← hpred, ← BitVec.toNat_and, hand]; rfl
  obtain ⟨k, hk⟩ := (Nat.and_sub_one_eq_zero_iff_isPowerOfTwo hpos).1 hzero
  refine ⟨k, BitVec.eq_of_toNat_eq ?_⟩
  rw [BitVec.toNat_twoPow, ← hk, Nat.mod_eq_of_lt b.isLt]

/-- Different flags have no bit in common (R19). -/
theorem isFlagBit_disjoint {a b : Byte} (ha : isFlagBit a = true) (hb : isFlagBit b = true) (hne : a ≠ b) :
    a &&& b = 0#8 := by
  obtain ⟨j, rfl⟩ := isFlagBit_eq_twoPow ha
  obtain ⟨k, rfl⟩ := isFlagBit_eq_twoPow hb
  have hjk : j ≠ k := fun h => hne (by rw [h])
  simp [BitVec.and_twoPow, BitVec.getLsbD_twoPow, hjk]

/-- The flags of a legal class have no bit in common (R241, log 7). -/
theorem legalFlags_disjoint {cls f g : Byte} {fs : List Byte} (h : legalFlags cls (f :: fs) = true) (hg : g ∈ fs) :
    f &&& g = 0#8 := by
  simp only [legalFlags, Bool.and_eq_true, List.all_eq_true, decide_eq_true_eq] at h
  obtain ⟨hbits, hnodup⟩ := h
  have hne : f ≠ g := fun heq => (List.nodup_cons.1 hnodup).1 (heq ▸ hg)
  exact isFlagBit_disjoint (hbits f (List.mem_cons_self ..)).1 (hbits g (List.mem_cons_of_mem _ hg)).1 hne

/-- The two flags of the entry mode (R79). -/
theorem entryMode_flags_disjoint {h : HDTable} (hl : h.legal = true) : h.emId &&& h.emS = 0#8 := by
  simp only [HDTable.legal, Bool.and_eq_true] at hl
  obtain ⟨⟨⟨⟨-, hflags⟩, -⟩, -⟩, -⟩ := hl
  exact legalFlags_disjoint hflags (List.mem_singleton_self _)

theorem getLsbD_bit (on : Bool) (f : Byte) (k : Nat) : (bit on f).getLsbD k = (on && f.getLsbD k) := by
  cases on <;> simp [bit]

/-- Two FLAGs that name all flags a slot holds leave in it the flags they enable (R138). -/
theorem flagged_flagged_of_own {v f g : Byte} (hfg : f &&& g = 0#8) (hv : v &&& ~~~(f ||| g) = 0#8) (on on' : Bool) :
    flagged (flagged v f on) g on' = (bit on f ||| bit on' g) := by
  refine BitVec.eq_of_getLsbD_eq fun k hk => ?_
  have hdisjoint : (f.getLsbD k && g.getLsbD k) = false := by
    rw [← BitVec.getLsbD_and, hfg, BitVec.getLsbD_zero]
  have hown := and_not_eq_zero_iff.1 hv k hk
  rw [BitVec.getLsbD_or] at hown
  rw [getLsbD_flagged, getLsbD_flagged, BitVec.getLsbD_or, getLsbD_bit, getLsbD_bit]
  cases hf : f.getLsbD k with
  | true =>
    have hg : g.getLsbD k = false := by simpa [hf] using hdisjoint
    simp [hg]
  | false =>
    cases hg : g.getLsbD k with
    | true => simp
    | false =>
      have hvk : v.getLsbD k = false := by simpa [hf, hg] using hown
      simp [hvk]

/-! FLAG in an accepted request (R131) -/

/-- FLAG on a class whose slot can be read writes the slot and sends the class's whole byte (R131). -/
theorem runOps_flag_opcode {s : State} {i : InstrClass} {v : Byte} (hl : s.cfg.legal = true) (hv : s.shadow.get i = some v)
    (bits : Byte) (en : Bool) (r : List Op) :
    runOps (.flag (i.opcode s.cfg.hd) bits en :: r) s =
      runOps r (wordSent { s with shadow := s.shadow.set (flagged v bits en) i } false
        (i.opcode s.cfg.hd ||| flagged v bits en)) := by
  have hflag : flagShadow s.cfg.hd s.shadow (i.opcode s.cfg.hd) bits en =
      .ok (s.shadow.set (flagged v bits en) i, i.opcode s.cfg.hd ||| flagged v bits en) := by
    simp only [flagShadow, slotOf_opcode (Cfg.legal_hd hl), hv]
    rfl
  have hlines := emitAll_cmdEvents { s with shadow := s.shadow.set (flagged v bits en) i }
    (i.opcode s.cfg.hd ||| flagged v bits en)
  rw [runOps_flag r hflag, hlines, cmdEvents_eq_cmdSent]
  rfl

/-- The state after an accepted request whose body was one FLAG that left `w` in the slot of class `i` (R131, R212). -/
def State.resent (s : State) (i : InstrClass) (w : Byte) : State :=
  { s.sent (cmdSent s.cfg (i.opcode s.cfg.hd ||| w)) false (low (i.opcode s.cfg.hd ||| w)) with
    shadow := s.shadow.set w i }

/-- An accepted request whose body is one FLAG (R131, R212). -/
theorem runRequest_flag {r : Req} {s : State} {i : InstrClass} {bits v : Byte} {en : Bool} (hl : s.cfg.legal = true)
    (ha : accept r s = .accepted) (hbody : r.body s.cfg = [.flag (i.opcode s.cfg.hd) bits en])
    (hv : s.shadow.get i = some v) : runRequest r s = .next (s.resent i (flagged v bits en)) := by
  have hops := runOps_flag_opcode (s := s.begin r.code) hl hv bits en []
  rw [State.begin_cfg] at hops
  rw [runRequest_accepted hl ha, hbody, hops]
  rfl

theorem checkWritten_some {sh : Shadow} {i : InstrClass} {v : Byte} (h : sh.get i = some v) : checkWritten sh i = none := by
  simp [checkWritten, h]

/-- Settles O15: each of the three is a FLAG on slot 1, and its one check is that the slot is written. -/
theorem displayTogglesResendTheSlot : Obligations.DisplayTogglesResendTheSlot := by
  intro s on v hs hv
  have hslot : s.shadow.get .displayControl = some v := hv
  have accepted (code : Byte) {r : Req} (hr : r.code = code) (hcode : code.toNat ≤ 0x0D) (hinit : code ≠ 0#8)
      (hown : r.own s = checkWritten s.shadow .displayControl) : accept r s = .accepted :=
    accept_of_ready code hr hs hcode hinit (hown.trans (checkWritten_some hslot))
  refine ⟨?_, ?_, ?_⟩
  · exact runRequest_flag (r := reqSetDisplay on) (i := .displayControl) hs.legal
      (accepted 0x08#8 rfl (by decide) (by decide) rfl) rfl hslot
  · exact runRequest_flag (r := reqSetCursor on) (i := .displayControl) hs.legal
      (accepted 0x09#8 rfl (by decide) (by decide) rfl) rfl hslot
  · exact runRequest_flag (r := reqSetBlink on) (i := .displayControl) hs.legal
      (accepted 0x0A#8 rfl (by decide) (by decide) rfl) rfl hslot

/-- Two FLAGs on one class write its slot twice and send its byte after each (R131, R138). -/
theorem runOps_flag_flag {s : State} {i : InstrClass} {v : Byte} (hl : s.cfg.legal = true) (hv : s.shadow.get i = some v)
    (f g : Byte) (on on' : Bool) :
    let v1 := flagged v f on
    let v2 := flagged v1 g on'
    let op1 := i.opcode s.cfg.hd ||| v1
    let op2 := i.opcode s.cfg.hd ||| v2
    runOps [.flag (i.opcode s.cfg.hd) f on, .flag (i.opcode s.cfg.hd) g on'] s =
      { s with shadow := s.shadow.set v2 i, trace := s.trace ++ (cmdSent s.cfg op1 ++ cmdSent s.cfg op2), pos := s.pos + 32,
               rs := some false, rw := some false, en := some false, dbus := some (low op2),
               port := drivePort s.cfg (low op2) s.port } := by
  intro v1 v2 op1 op2
  have hsecond := runOps_flag_opcode (s := wordSent { s with shadow := s.shadow.set v1 i } false op1) hl
    (Shadow.get_set_self s.shadow v1 i) g on' []
  rw [runOps_flag_opcode hl hv]
  refine hsecond.trans ?_
  simp [runOps, wordSent, v1, v2, op1, op2]

/-- Settles O16: SET_ENTRY_MODE is two FLAGs on slot 0; its two flags differ in a legal table. -/
theorem entryModeSendsTwoCommands : Obligations.EntryModeSendsTwoCommands := by
  intro s inc shift v hs hv
  have hslot : s.shadow.get .entryMode = some v := hv
  have haccept := accept_of_ready (r := reqSetEntryMode inc shift) 0x0C#8 rfl hs (by decide) (by decide)
    (checkWritten_some hslot)
  have hops := runOps_flag_flag (s := s.begin 0x0C#8) hs.legal hslot s.cfg.hd.emId s.cfg.hd.emS inc shift
  refine ⟨(runRequest_accepted hs.legal haccept).trans ?_,
    fun hown => flagged_flagged_of_own (entryMode_flags_disjoint (Cfg.legal_hd hs.legal)) hown inc shift⟩
  exact congrArg (fun t => Host.Outcome.next (State.finish t)) hops

/-! The checks of SET_FLAG (R134) -/

/-- A byte that is no toggle class has no slot, or that of an address class (R130, R134). -/
theorem checkFlag_badClass {c : Cfg} {cls : Byte}
    (h : cls ∉ [c.hd.entryMode, c.hd.displayControl, c.hd.shift, c.hd.functionSet]) (sh : Shadow) (bits : Byte)
    (en : Bool) : checkFlag c sh cls bits en = some .badClass := by
  cases hi : slotOf c.hd cls with
  | none => simp [checkFlag, hi]
  | some i =>
    have ht : i.isToggle = false := by
      obtain rfl := opcode_of_slotOf hi
      cases i with
      | setCgramAddr | setDdramAddr => rfl
      | entryMode | displayControl | cursorDisplayShift | functionSet => simp [InstrClass.opcode] at h
    simp [checkFlag, hi, ht]

section
variable {c : Cfg} {i : InstrClass} {bits : Byte} (hl : c.hd.legal = true) (ht : i.isToggle = true)
include hl ht

/-- A toggle class with a flag that is not its own (R134). -/
theorem checkFlag_badFlags (hbits : bits &&& ~~~(i.mask c.hd) ≠ 0#8) (sh : Shadow) (en : Bool) :
    checkFlag c sh (i.opcode c.hd) bits en = some .badFlags := by
  simp [checkFlag, slotOf_opcode hl i, ht, hbits]

/-- The flags are the class's own and do not select the 8-bit interface, so the slot's check is left (R134, R26). -/
theorem checkFlag_legal {en : Bool} (hbits : bits &&& ~~~(i.mask c.hd) = 0#8)
    (hdl : ¬(i = .functionSet ∧ en = true ∧ bits &&& c.hd.fsDl ≠ 0#8)) (sh : Shadow) :
    checkFlag c sh (i.opcode c.hd) bits en = checkWritten sh i := by
  have hwidth : ¬(i.opcode c.hd = c.hd.functionSet ∧ en = true ∧ bits &&& c.hd.fsDl ≠ 0#8) :=
    fun ⟨hop, hrest⟩ => hdl ⟨opcode_injective hl hop, hrest⟩
  simp [checkFlag, slotOf_opcode hl i, ht, hbits, hwidth]
end

/-- Enabling DL selects the 8-bit interface (R134). -/
theorem checkFlag_busWidth {c : Cfg} {bits : Byte} (hl : c.hd.legal = true)
    (hbits : bits &&& ~~~(InstrClass.functionSet.mask c.hd) = 0#8) (hdl : bits &&& c.hd.fsDl ≠ 0#8) (sh : Shadow) :
    checkFlag c sh c.hd.functionSet bits true = some .busWidth := by
  have hslot : slotOf c.hd c.hd.functionSet = some .functionSet := slotOf_opcode hl .functionSet
  simp [checkFlag, hslot, InstrClass.isToggle, hbits, hdl]

/-- Settles O33: each clause names the first check that fails. -/
theorem setFlagFaultsInOrder : Obligations.SetFlagFaultsInOrder := by
  intro s cls bits en hs
  have hl := Cfg.legal_hd hs.legal
  have fault {cause : Cause} (hown : checkFlag s.cfg s.shadow cls bits en = some cause) :
      exec (.setFlag cls bits en) s = .next (s.faulted cause.code 0x0D#8) :=
    runRequest_own_fault 0x0D#8 (r := reqSetFlag cls bits en) rfl hs (by decide) (by decide) hown
  refine ⟨fun hcls => fault (checkFlag_badClass hcls ..), ?_, ?_⟩
  · rintro i ht rfl hbits
    exact fault (checkFlag_badFlags hl ht hbits ..)
  · rintro rfl hbits rfl hdl
    exact fault (checkFlag_busWidth hl hbits hdl _)

/-- SET_FLAG with operands that its checks let pass, on a written slot (R134, R131). -/
theorem exec_setFlag {s : State} {i : InstrClass} {bits v : Byte} {en : Bool} (hs : s.Ready) (ht : i.isToggle = true)
    (hbits : bits &&& ~~~(i.mask s.cfg.hd) = 0#8)
    (hdl : ¬(i = .functionSet ∧ en = true ∧ bits &&& s.cfg.hd.fsDl ≠ 0#8)) (hv : s.shadow.get i = some v) :
    exec (.setFlag (i.opcode s.cfg.hd) bits en) s = .next (s.resent i (flagged v bits en)) := by
  have hown := (checkFlag_legal (Cfg.legal_hd hs.legal) ht hbits hdl s.shadow).trans (checkWritten_some hv)
  exact runRequest_flag (r := reqSetFlag (i.opcode s.cfg.hd) bits en) hs.legal
    (accept_of_ready 0x0D#8 rfl hs (by decide) (by decide) hown) rfl hv

/-- Settles O17: the checks pass, and the body is one FLAG. -/
theorem setFlagResendsTheSlot : Obligations.SetFlagResendsTheSlot := by
  intro s i bits en v hs ht hbits hdl hv
  exact exec_setFlag hs ht hbits hdl hv

/-! The toggle laws (R132, R133) -/

/-- Whatever SET_FLAG does, it leaves SHADOW or writes the one slot of its class (R131, R213). -/
theorem exec_setFlag_shadow {s t : State} {cls bits v : Byte} {en : Bool} {i : InstrClass}
    (hi : slotOf s.cfg.hd cls = some i) (hv : s.shadow.get i = some v) (h : exec (.setFlag cls bits en) s = .next t) :
    t.shadow = s.shadow ∨ t.shadow = s.shadow.set (flagged v bits en) i := by
  replace h : runRequest (reqSetFlag cls bits en) s = .next t := h
  obtain ⟨-, hc⟩ | ⟨-, -, hc⟩ | ⟨c, -, -, -, hc⟩ | ⟨hl, ha, -⟩ := runRequest_cases (reqSetFlag cls bits en) s
  · simp [hc] at h
  · cases hc.symm.trans h
    exact .inl rfl
  · cases hc.symm.trans h
    exact .inl rfl
  · obtain rfl := opcode_of_slotOf hi
    rw [runRequest_flag hl ha rfl hv] at h
    cases h
    exact .inr rfl

/-- Settles O56: a fault leaves SHADOW, and FLAG writes one slot, of which it changes the named bits. -/
theorem setFlagPerturbsNothingElse : Obligations.SetFlagPerturbsNothingElse := by
  intro s t cls bits en i v hs hi hv h
  obtain heq | heq := exec_setFlag_shadow hi hv h
  · exact ⟨fun j _ => by rw [heq], fun k _ => by rw [heq, hv, Option.map_some]⟩
  · refine ⟨fun j hj => ?_, fun k hk => ?_⟩
    · rw [heq, Shadow.get_set_ne _ _ hj]
    · rw [heq, Shadow.get_set_self, Option.map_some, getLsbD_flagged, hk]
      rfl

/-- The flags SET_FLAG may enable and disable under a configuration: those of a toggle class but DL (R130, R134). -/
structure Toggles (c : Cfg) (i : InstrClass) (bits : Byte) : Prop where
  toggle : i.isToggle = true
  own : bits &&& ~~~(i.mask c.hd) = 0#8
  noDl : i = .functionSet → bits &&& c.hd.fsDl = 0#8

/-- A Ready block of configuration `c` whose class `i` holds `v` in SHADOW `sh`. -/
structure Holds (c : Cfg) (i : InstrClass) (v : Byte) (sh : Shadow) (s : State) : Prop extends State.Ready s where
  cfg : s.cfg = c
  shadow : s.shadow = sh
  slot : sh.get i = some v

/-- SET_FLAG completes and leaves a block that accepts the next one. -/
theorem Holds.setFlag_next {c : Cfg} {i : InstrClass} {bits v : Byte} {sh : Shadow} {s : State} (h : Holds c i v sh s)
    (hb : Toggles c i bits) (en : Bool) :
    ∃ t, exec (.setFlag (i.opcode c.hd) bits en) s = .next t ∧
      Holds c i (flagged v bits en) (sh.set (flagged v bits en) i) t := by
  obtain ⟨hs, rfl, rfl, hv⟩ := h
  have hdl : ¬(i = .functionSet ∧ en = true ∧ bits &&& s.cfg.hd.fsDl ≠ 0#8) :=
    fun ⟨hi, _, hne⟩ => hne (hb.noDl hi)
  exact ⟨_, exec_setFlag hs hb.toggle hb.own hdl hv,
    ⟨⟨⟨hs.legal, hs.noFault, rfl⟩, hs.phase⟩, rfl, rfl, Shadow.get_set_self ..⟩⟩

/-- Settles O57: five requests that complete, and what the flags of the slot are after them. -/
theorem toggleLaws : Obligations.ToggleLaws := by
  intro s i bits v hs ht hbits hdl hv
  have hb : Toggles s.cfg i bits := ⟨ht, hbits, hdl⟩
  have h0 : Holds s.cfg i v s.shadow s := ⟨hs, rfl, rfl, hv⟩
  obtain ⟨a, ea, ha⟩ := h0.setFlag_next hb true
  obtain ⟨b, eb, hb'⟩ := ha.setFlag_next hb false
  obtain ⟨c, ec, hc⟩ := hb'.setFlag_next hb true
  obtain ⟨d, ed, hd⟩ := h0.setFlag_next hb false
  obtain ⟨e, ee, he⟩ := hd.setFlag_next hb true
  refine ⟨a, b, c, d, e, ea, eb, ec, ?_, ed, ee, ?_⟩
  · rw [hc.shadow, ha.shadow, flagged_flagged_on, flagged_flagged_on, Shadow.set_set, Shadow.set_set]
  · rw [he.shadow, flagged_flagged_on, Shadow.set_set, Shadow.set_eq_self_iff hv, flagged_on_eq_self_iff]

/-! The backlight (R139) -/

/-- Settles O18: one event on BL, or the request's own check. -/
theorem backlightDrivesTheLine : Obligations.BacklightDrivesTheLine := by
  intro s on hs
  refine ⟨fun hbl => ?_, fun hbl => ?_⟩
  · have hown : (reqSetBacklight on).own s = none := by simp [reqSetBacklight, hbl]
    exact runRequest_accepted hs.legal (accept_of_ready 0x0B#8 rfl hs (by decide) (by decide) hown)
  · have hown : (reqSetBacklight on).own s = some .noBacklight := by simp [reqSetBacklight, hbl]
    exact runRequest_own_fault 0x0B#8 (r := reqSetBacklight on) rfl hs (by decide) (by decide) hown

/-! The writers of SHADOW (R141) -/

/-- Operations that all send something do nothing but send it. -/
theorem runOps_of_events {ops : List Op} {s : State} (h : ∀ op ∈ ops, op.events s.cfg ≠ []) :
    runOps ops s = s.emitAll (ops.flatMap (Op.events s.cfg)) := by
  induction ops generalizing s with
  | nil => rfl
  | cons op r ih =>
    obtain ⟨hop, hr⟩ := List.forall_mem_cons.1 h
    rw [runOps_cons_of_events hop, ih (by simpa using hr), State.emitAll_cfg, List.flatMap_cons, State.emitAll_append]

/-- A request whose body is transfers and events alone does not write SHADOW. -/
theorem runRequest_shadow {r : Req} {s t : State} (hbody : ∀ op ∈ r.body s.cfg, op.events s.cfg ≠ [])
    (h : runRequest r s = .next t) : t.shadow = s.shadow := by
  obtain ⟨-, hc⟩ | ⟨-, -, hc⟩ | ⟨c, -, -, -, hc⟩ | ⟨-, -, hc⟩ := runRequest_cases r s
  · simp [hc] at h
  · cases hc.symm.trans h
    rfl
  · cases hc.symm.trans h
    rfl
  · cases hc.symm.trans h
    rw [runOps_of_events (by simpa using hbody)]
    simp

theorem runReserved_shadow {code : Byte} {s t : State} (h : runReserved code s = .next t) : t.shadow = s.shadow := by
  obtain rfl | ⟨-, c, rfl⟩ := runReserved_next h
  · rfl
  · rfl

theorem sendWord_shadow {w : Word10} {s t : State} (h : sendWord w s = .next t) : t.shadow = s.shadow := by
  obtain ⟨-, hc⟩ | ⟨-, -, hc⟩ | ⟨-, -, hc⟩ := sendWord_cases w s
  · simp [hc] at h
  · simp [hc] at h
  · cases hc.symm.trans h
    simp

theorem sendLone_shadow {s t : State} (h : sendLone s = .next t) : t.shadow = s.shadow := by
  unfold sendLone at h
  split at h
  · simp at h
  · cases h
    simp

/-- The requests that R141 names: INIT and those whose body is FLAG. -/
def ShadowWriter (i : Instr) : Prop :=
  i = .init ∨ (∃ on, i = .setDisplay on) ∨ (∃ on, i = .setCursor on) ∨ (∃ on, i = .setBlink on) ∨
    (∃ a b, i = .setEntryMode a b) ∨ (∃ c b e, i = .setFlag c b e)

/-- The body of every other request of the table is transfers and events alone. -/
theorem request_sends {i : Instr} {r : Req} (h : requestOf i = some r) (c : Cfg) :
    ShadowWriter i ∨ ∀ op ∈ r.body c, op.events c ≠ [] := by
  have word (w : Word10) : (Op.word w).events c ≠ [] := wordEvents_ne_nil c w
  cases i with
  | init => exact .inl (.inl rfl)
  | setDisplay on => exact .inl (.inr (.inl ⟨on, rfl⟩))
  | setCursor on => exact .inl (.inr (.inr (.inl ⟨on, rfl⟩)))
  | setBlink on => exact .inl (.inr (.inr (.inr (.inl ⟨on, rfl⟩))))
  | setEntryMode inc shift => exact .inl (.inr (.inr (.inr (.inr (.inl ⟨inc, shift, rfl⟩)))))
  | setFlag cls bits en => exact .inl (.inr (.inr (.inr (.inr (.inr ⟨cls, bits, en, rfl⟩)))))
  | sendCmd | sendData | goto | clear | home => cases h; exact .inr (List.forall_mem_singleton.2 (word _))
  | setBacklight on => cases h; exact .inr (List.forall_mem_singleton.2 (List.cons_ne_nil _ _))
  | writeString str => cases h; exact .inr (by simp [reqWriteString, word])
  | defChar index pattern => cases h; exact .inr (by simp [reqDefChar, word])
  | _ => cases h

/-- Settles O45: nothing but FLAG and step 2 of INIT writes SHADOW, and no other request has either in its body. -/
theorem onlyFlagAndInitWriteShadow : Obligations.OnlyFlagAndInitWriteShadow := by
  intro i s t h hne
  obtain ⟨r, hr, he, -⟩ | ⟨code, he, -⟩ | ⟨-, ⟨w, he⟩ | he⟩ := instr_cases i s
  · obtain hwriter | hbody := request_sends hr s.cfg
    · exact hwriter
    · exact absurd (runRequest_shadow hbody (he ▸ h)) hne
  · exact absurd (runReserved_shadow (he ▸ h)) hne
  · exact absurd (sendWord_shadow (he ▸ h)) hne
  · exact absurd (sendLone_shadow (he ▸ h)) hne

end Sys2Proof.Machine
end

section
/-! PROOF. Before a block is Ready: the phase check of a request (R160, R173, R212), and the lone nibble of step 3 (R164). -/

namespace Sys2Proof.Machine

/-! The phase check (R212) -/

/-- A request of the table that fails the phase check in an idle block faults with that cause, whatever its operands. -/
theorem runRequest_phase_fault {r : Req} {s : State} {cause : Cause} (hs : s.Idle) (hcode : r.code.toNat ≤ 0x0D)
    (hphase : checkPhase r.code s.phase = some cause) : runRequest r s = .next (s.faulted cause.code r.code) := by
  have haccept : accept r s = .fault cause := by
    simp [accept, hs.noFault, hs.notBusy, Nat.not_lt.2 hcode, hphase]
  simp [runRequest, hs.legal, haccept, raise_of_noFault hs.noFault, State.faulted]

/-- Settles O30: INIT's phase check asks for PHASE 0. -/
theorem secondInitFaults : Obligations.SecondInitFaults := by
  intro s hs hphase
  exact runRequest_phase_fault (r := reqInit) (cause := .reinit) hs (by decide) (by simp [checkPhase, reqInit, hphase])

/-- A byte is at least its masked value. -/
theorem toNat_le_of_and_eq {a m v : Byte} (h : a &&& m = v) : v.toNat ≤ a.toNat := by
  rw [← h, BitVec.toNat_and]
  exact Nat.and_le_left

/-- A well-formed instruction with a code of the table is run whole as a request with that code (R72, R74). -/
theorem exec_of_requestCode {i : Instr} {code : Byte} (hi : requestCode i = some code) (hwf : i.wf = true)
    (hcode : code.toNat ≤ 0x0D) : ∃ r : Req, r.code = code ∧ ∀ s, exec i s = runRequest r s := by
  have outside {m v : Byte} (hm : (code &&& m == v) = true) (hv : 0x0D < v.toNat) : False :=
    absurd (toNat_le_of_and_eq (beq_iff_eq.1 hm)) (by omega)
  cases i with
  | init | sendCmd | sendData | writeString | goto | defChar | clear | home | setDisplay | setCursor | setBlink
  | setBacklight | setEntryMode | setFlag =>
    cases hi
    exact ⟨_, rfl, fun _ => rfl⟩
  | reserved0E0F | reserved101F | reserved203F | reserved407F | reserved80FF =>
    cases hi
    exact (outside hwf (by decide)).elim
  | _ => cases hi

/-- Settles O29: every code but INIT's asks for PHASE 9, before the request's own checks. -/
theorem notReadyBlockFaultsRuntimeRequests : Obligations.NotReadyBlockFaultsRuntimeRequests := by
  intro s i code hs hphase hi hwf hne hcode
  obtain ⟨r, rfl, hexec⟩ := exec_of_requestCode hi hwf hcode
  rw [hexec]
  exact runRequest_phase_fault (cause := .notReady) hs hcode (by simp [checkPhase, hne, hphase])

/-! The lone nibble (R164) -/

/-- Settles O25: the sending is the nibble's events, which leave the lines as `emitAll_loneEvents` says. -/
theorem loneNibbleIsOneStrobe : Obligations.LoneNibbleIsOneStrobe := by
  intro s hl
  have hsend : exec .loneNibble s = .next (s.emitAll loneEvents) := by simp [exec, execLoneNibble, sendLone, hl]
  rw [hsend, emitAll_loneEvents]
  rfl

end Sys2Proof.Machine
end

section
/-! PROOF. A slot of SHADOW under the flag calls of a legal schedule step (R131, R170). -/

namespace Sys2Proof.Machine

open Claims

/-- The slot's value after each flag call of a step, in order (R131). -/
def slotValues (v : Byte) : List FlagCall → List Byte
  | [] => []
  | f :: fs => flagged v f.bits f.en :: slotValues (flagged v f.bits f.en) fs

/-- The slot's value after all flag calls of a step (R131). -/
def slotAfter (v : Byte) : List FlagCall → Byte
  | [] => v
  | f :: fs => slotAfter (flagged v f.bits f.en) fs

@[simp] theorem slotValues_length (v : Byte) (fs : List FlagCall) : (slotValues v fs).length = fs.length := by
  induction fs generalizing v with
  | nil => rfl
  | cons f fs ih => simp [slotValues, ih]

theorem slotValues_getLast? (v : Byte) {fs : List FlagCall} (h : fs ≠ []) :
    (slotValues v fs).getLast? = some (slotAfter v fs) := by
  induction fs generalizing v with
  | nil => exact absurd rfl h
  | cons f fs ih =>
    cases fs with
    | nil => rfl
    | cons g gs => exact ih (flagged v f.bits f.en) (List.cons_ne_nil g gs)

/-- A flag that calls name only with the value `b` ends at `b` when one of them names it or it was at `b` before. -/
theorem getLsbD_slotAfter {fs : List FlagCall} {k : Nat} {b : Bool}
    (hen : ∀ f ∈ fs, f.bits.getLsbD k = true → f.en = b) {v : Byte}
    (hv : (flagsNamed fs).getLsbD k = true ∨ v.getLsbD k = b) : (slotAfter v fs).getLsbD k = b := by
  induction fs generalizing v with
  | nil => simpa [flagsNamed, slotAfter] using hv
  | cons f fs ih =>
    obtain ⟨hf, hfs⟩ := List.forall_mem_cons.1 hen
    refine ih hfs ?_
    rw [getLsbD_flagged]
    rw [flagsNamed, BitVec.getLsbD_or] at hv
    cases hk : f.bits.getLsbD k with
    | true => exact .inr (hf hk)
    | false => simpa [hk] using hv

/-- Calls that set no flag outside `on` leave a slot within `on` there. -/
theorem slotValues_within {fs : List FlagCall} {on : Byte}
    (hen : ∀ f ∈ fs, ∀ k, f.bits.getLsbD k = true → f.en = on.getLsbD k) {v : Byte} (hv : v &&& ~~~on = 0#8) :
    ∀ w ∈ slotValues v fs, w &&& ~~~on = 0#8 := by
  induction fs generalizing v with
  | nil => exact nofun
  | cons f fs ih =>
    obtain ⟨hf, hfs⟩ := List.forall_mem_cons.1 hen
    have hnext : flagged v f.bits f.en &&& ~~~on = 0#8 := by
      refine and_not_eq_zero_iff.2 fun k hk hbit => ?_
      rw [getLsbD_flagged] at hbit
      split at hbit
      · exact (hf k ‹_›).symm.trans hbit
      · exact and_not_eq_zero_iff.1 hv k hk hbit
    exact List.forall_mem_cons.2 ⟨hnext, ih hfs hnext⟩

theorem getLsbD_of_and_eq_zero {a b : Byte} (h : a &&& b = 0#8) {k : Nat} (hk : a.getLsbD k = true) :
    b.getLsbD k = false := by
  have hbit := congrArg (·.getLsbD k) h
  simpa [hk] using hbit

/-- A legal call gives every flag that it names the flag's target value (R170). -/
theorem legalFor_en {cls on off : Byte} {f : FlagCall} (h : f.legalFor cls on off = true) {k : Nat}
    (hk : f.bits.getLsbD k = true) : f.en = on.getLsbD k := by
  simp only [FlagCall.legalFor, Bool.and_eq_true, beq_iff_eq] at h
  obtain ⟨⟨-, htarget⟩, hen⟩ := h
  have honoff : on.getLsbD k = true ∨ off.getLsbD k = true := by
    simpa using and_not_eq_zero_iff.1 htarget k (BitVec.lt_of_getLsbD hk) hk
  cases he : f.en with
  | true =>
    have hoff : off.getLsbD k = false := getLsbD_of_and_eq_zero (by simpa [he] using hen) hk
    exact (honoff.resolve_right (by simp [hoff])).symm
  | false => exact (getLsbD_of_and_eq_zero (by simpa [he] using hen) hk).symm

section
variable {cls on off : Byte} {fs : List FlagCall} (h : legalStep cls on off fs = true)
include h

theorem legalStep_en {f : FlagCall} (hf : f ∈ fs) {k : Nat} (hk : f.bits.getLsbD k = true) : f.en = on.getLsbD k := by
  simp only [legalStep, Bool.and_eq_true, List.all_eq_true] at h
  exact legalFor_en (h.1 f hf) hk

/-- A legal step leaves in a cleared slot exactly the flags that are to be on (R170, R171). -/
theorem slotAfter_legalStep : slotAfter 0#8 fs = on := by
  refine BitVec.eq_of_getLsbD_eq fun k hk => getLsbD_slotAfter (fun f hf => legalStep_en h hf) ?_
  simp only [legalStep, Bool.and_eq_true, beq_iff_eq] at h
  cases hon : on.getLsbD k with
  | true => exact .inl (and_not_eq_zero_iff.1 h.2 k hk (by simp [hon]))
  | false => exact .inr BitVec.getLsbD_zero

theorem legalStep_ne_nil (hon : on ≠ 0#8) : fs ≠ [] := by
  rintro rfl
  exact hon (slotAfter_legalStep h).symm

end

/-- A slot within a single flag holds that flag or nothing (R19). -/
theorem eq_zero_or_eq_of_within {w f : Byte} (hf : isFlagBit f = true) (hw : w &&& ~~~f = 0#8) : w = 0#8 ∨ w = f := by
  obtain ⟨k, rfl⟩ := isFlagBit_eq_twoPow hf
  have hself : w &&& BitVec.twoPow 8 k = w := by
    refine BitVec.eq_of_getLsbD_eq fun j hj => ?_
    rw [BitVec.getLsbD_and, Bool.and_eq_left_iff_imp]
    exact and_not_eq_zero_iff.1 hw j hj
  rw [BitVec.and_twoPow] at hself
  split at hself
  · exact .inr hself.symm
  · exact .inl hself.symm

/-- The command bytes of a schedule step on class `i`, from the slot value `v` (R131, R170). -/
def stepBytes (h : HDTable) (i : InstrClass) (v : Byte) (fs : List FlagCall) : List Byte :=
  (slotValues v fs).map (i.opcode h ||| ·)

@[simp] theorem stepBytes_length (h : HDTable) (i : InstrClass) (v : Byte) (fs : List FlagCall) :
    (stepBytes h i v fs).length = fs.length := by simp [stepBytes]

section
variable {h : HDTable} {i : InstrClass} {on off : Byte} {fs : List FlagCall}
  (hstep : legalStep (i.opcode h) on off fs = true) (hon : isFlagBit on = true)
include hstep hon

/-- A legal step with one flag that is to be on sends the class's opcode with that flag or with none (R170). -/
theorem mem_stepBytes {x : Byte} (hx : x ∈ stepBytes h i 0#8 fs) : x = i.opcode h ∨ x = (i.opcode h ||| on) := by
  obtain ⟨w, hw, rfl⟩ := List.mem_map.1 hx
  have hwithin := slotValues_within (fun f hf k => legalStep_en hstep hf) BitVec.zero_and w hw
  obtain rfl | rfl := eq_zero_or_eq_of_within hon hwithin
  · exact .inl BitVec.or_zero
  · exact .inr rfl

/-- The last byte of the step has the flag (R170). -/
theorem stepBytes_getLast? : (stepBytes h i 0#8 fs).getLast? = some (i.opcode h ||| on) := by
  have hne : on ≠ 0#8 := by
    rintro rfl
    cases hon
  rw [stepBytes, List.getLast?_map, slotValues_getLast? _ (legalStep_ne_nil hstep hne), slotAfter_legalStep hstep]
  rfl

end

end Sys2Proof.Machine
end

section
/-! PROOF. INIT (R160 to R171): the events its operations send and what they write, step by step, and the state they end in. -/

namespace Sys2Proof.Machine

open Claims

/-! What operations send and write -/

/-- No event reads or writes SHADOW or PHASE, so writing them before some events is writing them after. -/
theorem emitAll_withRegs (s : State) (sh : Shadow) (p : BitVec 4) (es : List Event) :
    { s with shadow := sh, phase := p }.emitAll es = { s.emitAll es with shadow := sh, phase := p } := by
  induction es generalizing s with
  | nil => rfl
  | cons e es ih =>
    have hemit : { s with shadow := sh, phase := p }.emit e = { s.emit e with shadow := sh, phase := p } := by
      cases e with
      | set l b => cases l <;> rfl
      | dir | dbus | wait => rfl
    rw [State.emitAll_cons, hemit, ih, State.emitAll_cons]

/-- A command's events do what CMD does (R106). -/
theorem emitAll_cmdSent {s : State} {c : Cfg} (hc : s.cfg = c) (op : Byte) :
    s.emitAll (cmdSent c op) = wordSent s false op := by
  subst hc
  rw [← cmdEvents_eq_cmdSent, emitAll_cmdEvents, cmdEvents_eq_cmdSent]
  rfl

/-- Under configuration `c`, `ops` send `es` and take SHADOW and PHASE from `x` to `y`, whatever follows them. -/
def Runs (c : Cfg) (ops : List Op) (x : Shadow × BitVec 4) (es : List Event) (y : Shadow × BitVec 4) : Prop :=
  ∀ s r, s.cfg = c → (s.shadow, s.phase) = x →
    runOps (ops ++ r) s = runOps r { s.emitAll es with shadow := y.1, phase := y.2 }

namespace Runs

variable {c : Cfg} {ops ops' : List Op} {es es' : List Event} {x y z : Shadow × BitVec 4} {sh : Shadow} {p : BitVec 4}

theorem append (h : Runs c ops x es y) (h' : Runs c ops' y es' z) : Runs c (ops ++ ops') x (es ++ es') z := by
  intro s r hc hx
  rw [List.append_assoc, h s _ hc hx, h' _ r (by simpa using hc) rfl, emitAll_withRegs, State.emitAll_append]

theorem nil : Runs c [] (sh, p) [] (sh, p) := by
  rintro s r rfl hx
  cases hx
  rfl

/-- An operation that has events sends them. -/
theorem sends {op : Op} (he : op.events c ≠ []) : Runs c [op] (sh, p) (op.events c) (sh, p) := by
  rintro s r rfl hx
  cases hx
  rw [List.singleton_append, runOps_cons_of_events he, ← emitAll_withRegs]

theorem cmd (op : Byte) : Runs c [.word (cmdWord op)] (sh, p) (cmdSent c op) (sh, p) := by
  have h := sends (c := c) (sh := sh) (p := p) (op := .word (cmdWord op)) (wordEvents_ne_nil c _)
  rwa [Op.events, wordEvents_cmdWord, cmdEvents_eq_cmdSent] at h

theorem phase (q : BitVec 4) : Runs c [.phase q] (sh, p) [] (sh, q) := by
  rintro s r rfl hx
  cases hx
  rfl

theorem zeroShadow : Runs c [.zeroShadow] (sh, p) [] (Shadow.zeroed, p) := by
  rintro s r rfl hx
  cases hx
  rfl

/-- FLAG on a class whose slot can be read (R131). -/
theorem flag (hl : c.legal = true) {i : InstrClass} {v : Byte} (hv : sh.get i = some v) (bits : Byte) (en : Bool) :
    Runs c [.flag (i.opcode c.hd) bits en] (sh, p) (cmdSent c (i.opcode c.hd ||| flagged v bits en))
      (sh.set (flagged v bits en) i, p) := by
  rintro s r rfl hx
  cases hx
  rw [List.singleton_append, runOps_flag_opcode hl hv, ← emitAll_cmdSent rfl]
  exact congrArg (runOps r) (emitAll_withRegs s _ s.phase _)

/-- Flag calls on one class send the class's byte after each. -/
theorem flagCalls (hl : c.legal = true) {i : InstrClass} {fs : List FlagCall} (hcls : ∀ f ∈ fs, f.cls = i.opcode c.hd)
    {v : Byte} (hv : sh.get i = some v) :
    Runs c (flagOps fs) (sh, p) ((stepBytes c.hd i v fs).flatMap (cmdSent c)) (sh.set (slotAfter v fs) i, p) := by
  induction fs generalizing sh v with
  | nil =>
    have hset : sh.set (slotAfter v []) i = sh := (Shadow.set_eq_self_iff hv v).2 rfl
    rw [hset]
    exact nil
  | cons f fs ih =>
    obtain ⟨hf, hfs⟩ := List.forall_mem_cons.1 hcls
    have hrest := ih hfs (Shadow.get_set_self sh (flagged v f.bits f.en) i)
    rw [Shadow.set_set] at hrest
    have hops : flagOps (f :: fs) = [.flag (i.opcode c.hd) f.bits f.en] ++ flagOps fs := by rw [← hf]; rfl
    rw [hops, stepBytes, slotValues, List.map_cons, List.flatMap_cons]
    exact (flag hl hv f.bits f.en).append hrest

/-- A legal schedule step on a cleared slot (R165, R167, R168). -/
theorem scheduleStep (hl : c.legal = true) {i : InstrClass} {on off : Byte} {fs : List FlagCall}
    (hstep : legalStep (i.opcode c.hd) on off fs = true) (hv : sh.get i = some 0#8) :
    Runs c (flagOps fs) (sh, p) ((stepBytes c.hd i 0#8 fs).flatMap (cmdSent c)) (sh.set on i, p) := by
  have h := flagCalls (p := p) hl (fun f hf => (legalStep_call hstep hf).1) hv
  rwa [slotAfter_legalStep hstep] at h

/-- Step 5 (R166). -/
theorem backlight :
    Runs c (if c.pBacklight then [.emit (.set .bl (blLevel c true))] else []) (sh, p)
      (if c.pBacklight then [.set .bl c.pBlOnLevel] else []) (sh, p) := by
  split
  · exact sends (List.cons_ne_nil _ _)
  · exact nil

end Runs

/-! INIT -/

/-- INIT's events, step by step (R162 to R169). -/
def initEvents (c : Cfg) : List Event :=
  [.dir (outputLines c)] ++
  loneEvents ++
  (stepBytes c.hd .functionSet 0#8 c.initSchedule.step4).flatMap (cmdSent c) ++
  (if c.pBacklight then [.set .bl c.pBlOnLevel] else []) ++
  (stepBytes c.hd .displayControl 0#8 c.initSchedule.step6).flatMap (cmdSent c) ++
  (stepBytes c.hd .entryMode 0#8 c.initSchedule.step7).flatMap (cmdSent c) ++
  cmdSent c c.hd.clear ++
  cmdSent c c.hd.home

/-- SHADOW after INIT (R171). -/
def initShadow (h : HDTable) : Shadow := ⟨some h.emId, some h.dcD, some 0#8, some h.fsN, some 0#8, some 0#8⟩

/-- INIT's body, whatever SHADOW and PHASE were before (R161, R171). -/
theorem runs_initBody {c : Cfg} (hl : c.legal = true) (sh : Shadow) (p : BitVec 4) :
    Runs c (initBody c) (sh, p) (initEvents c) (initShadow c.hd, 9#4) := by
  obtain ⟨h4, h6, h7⟩ := Cfg.legal_schedule hl
  have dir : Runs c [.emit (.dir (outputLines c))] (sh, p) [.dir (outputLines c)] (sh, p) :=
    .sends (List.cons_ne_nil _ _)
  have lone : Runs c [.lone] (Shadow.zeroed, 2#4) loneEvents (Shadow.zeroed, 2#4) := .sends (List.cons_ne_nil _ _)
  have step4 := Runs.scheduleStep (i := .functionSet) (sh := Shadow.zeroed) (p := 3#4) hl h4 rfl
  have step6 := Runs.scheduleStep (i := .displayControl)
    (sh := Shadow.zeroed.set c.hd.fsN .functionSet) (p := 4#4) hl h6 rfl
  have step7 := Runs.scheduleStep (i := .entryMode)
    (sh := (Shadow.zeroed.set c.hd.fsN .functionSet).set c.hd.dcD .displayControl) (p := 5#4) hl h7 rfl
  have h := dir.append (.phase 1#4) |>.append .zeroShadow |>.append (.phase 2#4)
    |>.append lone |>.append (.phase 3#4) |>.append step4 |>.append (.phase 4#4) |>.append .backlight
    |>.append step6 |>.append (.phase 5#4) |>.append step7 |>.append (.phase 6#4)
    |>.append (.cmd c.hd.clear) |>.append (.phase 7#4) |>.append (.cmd c.hd.home) |>.append (.phase 8#4)
    |>.append (.phase 9#4)
  simpa [initBody, initEvents, initShadow, Shadow.set, Shadow.zeroed] using h

theorem accept_init {s : State} (hs : s.Idle) (hphase : s.phase = 0#4) : accept reqInit s = .accepted :=
  (accept_eq_accepted_iff reqInit s).2 ⟨hs.noFault, hs.notBusy, by decide, by simp [checkPhase, reqInit, hphase], rfl⟩

/-- INIT in a block that accepts it sends its steps' events and writes SHADOW and PHASE (R161). -/
theorem exec_init {s : State} (hs : s.Idle) (hphase : s.phase = 0#4) :
    exec .init s = .next
      { (s.begin 0#8).emitAll (initEvents s.cfg) with shadow := initShadow s.cfg.hd, phase := 9#4 }.finish := by
  have hrun := runs_initBody hs.legal s.shadow s.phase (s.begin 0#8) [] rfl rfl
  rw [List.append_nil] at hrun
  exact (runRequest_accepted hs.legal (accept_init hs hphase)).trans
    (congrArg (fun t => Host.Outcome.next (State.finish t)) hrun)

/-! The lines after INIT (R171) -/

/-- An event that drives neither DIR nor BL: all that a byte or a nibble is sent with (R102 to R108). -/
def Event.onBus : Event → Bool
  | .dir _ => false
  | .set l _ => l != .bl
  | .dbus _ => true
  | .wait _ => true

theorem emitAll_onBus {es : List Event} (h : ∀ e ∈ es, e.onBus = true) (s : State) :
    (s.emitAll es).dir = s.dir ∧ (s.emitAll es).bl = s.bl := by
  induction es generalizing s with
  | nil => exact ⟨rfl, rfl⟩
  | cons e es ih =>
    obtain ⟨he, hes⟩ := List.forall_mem_cons.1 h
    have hemit : (s.emit e).dir = s.dir ∧ (s.emit e).bl = s.bl := by
      cases e with
      | dir l => cases he
      | set l b =>
        cases l with
        | bl => cases he
        | rs | rw | en => exact ⟨rfl, rfl⟩
      | dbus | wait => exact ⟨rfl, rfl⟩
    obtain ⟨hdir, hbl⟩ := ih hes (s.emit e)
    exact ⟨hdir.trans hemit.1, hbl.trans hemit.2⟩

theorem cmdSent_onBus (c : Cfg) (op : Byte) : ∀ e ∈ cmdSent c op, e.onBus = true := by
  simp [cmdSent, byteSent, Event.onBus]

theorem cmds_onBus (c : Cfg) (bs : List Byte) : ∀ e ∈ bs.flatMap (cmdSent c), e.onBus = true := by
  intro e he
  obtain ⟨b, -, hb⟩ := List.mem_flatMap.1 he
  exact cmdSent_onBus c b e hb

/-- INIT's first event drives DIR, and no later one does; step 5 drives BL in a block that has the line (R162, R166). -/
theorem emitAll_initEvents_dir_bl (c : Cfg) (s : State) :
    (s.emitAll (initEvents c)).dir = outputLines c ∧
      (s.emitAll (initEvents c)).bl = if c.pBacklight then some c.pBlOnLevel else s.bl := by
  have cmds (t : State) (bs : List Byte) := emitAll_onBus (cmds_onBus c bs) t
  have cmd (t : State) (op : Byte) := emitAll_onBus (cmdSent_onBus c op) t
  simp only [initEvents, State.emitAll_append, cmds, cmd]
  split
  · simp [cmds, emitAll_loneEvents]
  · simp [cmds, emitAll_loneEvents]

/-- Whatever was sent before, the next `DBUS` decides the data field (R33). -/
theorem drivePort_emitAll (s : State) (v : Nibble) (es : List Event) :
    drivePort s.cfg v (s.emitAll es).port = drivePort s.cfg v s.port := by
  induction es generalizing s with
  | nil => rfl
  | cons e es ih =>
    have hemit : drivePort s.cfg v (s.emit e).port = drivePort s.cfg v s.port := by
      cases e with
      | set l b => cases l <;> rfl
      | dbus w => exact drivePort_drivePort ..
      | dir | wait => rfl
    exact (State.emit_cfg s e ▸ ih (s.emit e)).trans hemit

/-- Events that end in a command leave all lines but DIR and BL as that command does (R106). -/
theorem emitAll_endingInCmd {s : State} {es pre : List Event} {op : Byte} (h : es = pre ++ cmdSent s.cfg op) :
    s.emitAll es =
      { s with dir := (s.emitAll es).dir, bl := (s.emitAll es).bl, rs := some false, rw := some false, en := some false,
               dbus := some (low op), port := drivePort s.cfg (low op) s.port, trace := s.trace ++ es,
               pos := s.pos + es.length } := by
  have hlast := emitAll_cmdSent (State.emitAll_cfg s pre) op
  rw [← State.emitAll_append, ← h] at hlast
  have hport := drivePort_emitAll s (low op) pre
  rw [hlast]
  subst h
  simp [wordSent, hport, cmdSent, byteSent, Nat.add_assoc]

/-- Settles O19: INIT's last events are HOME's command, which decides the bus lines; DIR and BL are driven once each, and the
legal schedule leaves in each slot the flags that are to be on. -/
theorem initReachesReady : Obligations.InitReachesReady := by
  intro s hs hphase
  obtain ⟨hdir, hbl⟩ := emitAll_initEvents_dir_bl s.cfg (s.begin 0#8)
  have hlines := emitAll_endingInCmd (s := s.begin 0#8) (es := initEvents s.cfg) rfl
  rw [hdir, hbl] at hlines
  refine ⟨initEvents s.cfg, (exec_init hs hphase).trans ?_⟩
  rw [hlines, State.begin_pos, Nat.zero_add]
  rfl

/-- INIT from reset leaves its own events as the whole of TRACE. -/
theorem exec_init_resetWith {c : Cfg} (hl : c.legal = true) :
    ∃ t, exec .init (State.resetWith c) = .next t ∧ t.trace = initEvents c := by
  refine ⟨_, exec_init (s := State.resetWith c) ⟨hl, rfl, rfl⟩ rfl, ?_⟩
  simp [State.resetWith]

end Sys2Proof.Machine
end

section
/-! PROOF. INIT's transfer log (R113, R170, R172). -/

namespace Sys2Proof.Machine

open Claims

/-! The log of a trace in parts (R113) -/

/-- A trailing wait closes the entry of the nibbles before it, and the next transfer starts without any. -/
theorem xferFrom_wait_cons {k : Wait} (hk : k = .exec ∨ k = .long) (l : Levels) (nibs : List (Option Nibble))
    (es : List Event) : xferFrom l nibs (.wait k :: es) = closeXfer l.rs nibs k ++ xferFrom l [] es := by
  obtain rfl | rfl := hk
  · rfl
  · rfl

/-- A command's entry, with the wait of R107. -/
def cmdEntry (c : Cfg) (op : Byte) : Xfer := .c op (if op ∈ c.pLongOps then .long else .exec)

/-- Between two transfers, `es` adds the entries `xs` to the log, whatever the lines are and whatever follows. -/
def Logs (es : List Event) (xs : List Xfer) : Prop :=
  ∀ (l : Levels) (rest : List Event), ∃ l', xferFrom l [] (es ++ rest) = xs ++ xferFrom l' [] rest

namespace Logs

theorem nil : Logs [] [] := fun l _ => ⟨l, rfl⟩

theorem append {es fs : List Event} {xs ys : List Xfer} (h : Logs es xs) (h' : Logs fs ys) :
    Logs (es ++ fs) (xs ++ ys) := by
  intro l rest
  obtain ⟨l1, h1⟩ := h l (fs ++ rest)
  obtain ⟨l2, h2⟩ := h' l1 rest
  exact ⟨l2, by rw [List.append_assoc, h1, h2, List.append_assoc]⟩

theorem xfer_eq {es : List Event} {xs : List Xfer} (h : Logs es xs) : xfer es = xs := by
  obtain ⟨l, hl⟩ := h Levels.start []
  simpa [xfer, xferFrom] using hl

theorem dir (lines : List Line) : Logs [.dir lines] [.dir lines] := fun l _ => ⟨l, rfl⟩

theorem bl (b : Bool) : Logs [.set .bl b] [.bl b] := fun l _ => ⟨l, rfl⟩

theorem lone : Logs loneEvents [.n 2#4] := fun _ _ => ⟨_, rfl⟩

/-- One command byte is one entry, with its trailing wait (R106). -/
theorem byte {k : Wait} (hk : k = .exec ∨ k = .long) (op : Byte) : Logs (byteSent false op k) [.c op k] := by
  intro l rest
  have hevents : byteSent false op k ++ rest = .set .rs false :: .set .rw false :: .wait .as ::
      (nibEvents (op.extractLsb' 4 4) ++ (nibEvents (op.extractLsb' 0 4) ++ .wait k :: rest)) := rfl
  rw [hevents, xferFrom_setup, xferFrom_nibEvents, xferFrom_nibEvents, xferFrom_wait_cons hk]
  exact ⟨_, congrArg (· ++ _) (by simp [closeXfer, nibbles_append])⟩

theorem cmd (c : Cfg) (op : Byte) : Logs (cmdSent c op) [cmdEntry c op] := byte (by split <;> simp) op

theorem cmds (c : Cfg) (bs : List Byte) : Logs (bs.flatMap (cmdSent c)) (bs.map (cmdEntry c)) := by
  induction bs with
  | nil => exact nil
  | cons b bs ih => exact (cmd c b).append ih

end Logs

/-- INIT's transfer log, under every configuration (R170, R172). -/
theorem xfer_initEvents (c : Cfg) :
    xfer (initEvents c) =
      [.dir (outputLines c)] ++ [.n 2#4] ++
      (stepBytes c.hd .functionSet 0#8 c.initSchedule.step4).map (cmdEntry c) ++
      (if c.pBacklight then [.bl c.pBlOnLevel] else []) ++
      (stepBytes c.hd .displayControl 0#8 c.initSchedule.step6).map (cmdEntry c) ++
      (stepBytes c.hd .entryMode 0#8 c.initSchedule.step7).map (cmdEntry c) ++
      [cmdEntry c c.hd.clear] ++ [cmdEntry c c.hd.home] := by
  have backlight : Logs (if c.pBacklight then [.set .bl c.pBlOnLevel] else [])
      (if c.pBacklight then [.bl c.pBlOnLevel] else []) := by
    split
    · exact .bl _
    · exact .nil
  exact Logs.xfer_eq ((Logs.dir _).append .lone |>.append (.cmds c _) |>.append backlight |>.append (.cmds c _)
    |>.append (.cmds c _) |>.append (.cmd c _) |>.append (.cmd c _))

/-! Every legal schedule (R170), and the default one (R172) -/

/-- Commands none of which is a long operation (R107). -/
theorem map_cmdEntry_of_short {c : Cfg} {bs : List Byte} (h : ∀ x ∈ bs, x ∉ c.pLongOps) :
    bs.map (cmdEntry c) = bs.map (.c · .exec) :=
  List.map_congr_left fun x hx => by simp [cmdEntry, h x hx]

/-- Settles O21: each step has one flag that is to be on, so its bytes are the class's opcode with that flag or without, and
none of them is a long operation. -/
theorem initUnderEverySchedule : Obligations.InitUnderEverySchedule := by
  intro c hl hhd hlong
  obtain ⟨t, ht, htrace⟩ := exec_init_resetWith hl
  obtain ⟨h4, h6, h7⟩ := Cfg.legal_schedule hl
  have hlog := xfer_initEvents c
  rw [hhd] at h4 h6 h7 hlog
  have bytes4 (x) (hx : x ∈ stepBytes HDTable.standard .functionSet 0#8 c.initSchedule.step4) :
      x = 0x20#8 ∨ x = 0x28#8 := mem_stepBytes (i := .functionSet) h4 rfl hx
  have bytes6 (x) (hx : x ∈ stepBytes HDTable.standard .displayControl 0#8 c.initSchedule.step6) :
      x = 0x08#8 ∨ x = 0x0C#8 := mem_stepBytes (i := .displayControl) h6 rfl hx
  have bytes7 (x) (hx : x ∈ stepBytes HDTable.standard .entryMode 0#8 c.initSchedule.step7) :
      x = 0x04#8 ∨ x = 0x06#8 := mem_stepBytes (i := .entryMode) h7 rfl hx
  have short {x a b : Byte} (hx : x = a ∨ x = b) (hab : ∀ y ∈ [a, b], y ∉ [0x01#8, 0x02#8, 0x03#8]) :
      x ∉ c.pLongOps := hlong ▸ hab x (by simpa using hx)
  have long : cmdEntry c 0x01#8 = .c 0x01#8 .long ∧ cmdEntry c 0x02#8 = .c 0x02#8 .long := by simp [cmdEntry, hlong]
  rw [← htrace, map_cmdEntry_of_short fun x hx => short (bytes4 x hx) (by decide),
    map_cmdEntry_of_short fun x hx => short (bytes6 x hx) (by decide),
    map_cmdEntry_of_short fun x hx => short (bytes7 x hx) (by decide)] at hlog
  refine ⟨t, _, _, _, ht, hlog.trans ?_, stepBytes_length .., stepBytes_length .., stepBytes_length .., bytes4, bytes6,
    bytes7, stepBytes_getLast? (i := .functionSet) h4 rfl, stepBytes_getLast? (i := .displayControl) h6 rfl,
    stepBytes_getLast? (i := .entryMode) h7 rfl⟩
  simp [outputLines, HDTable.standard, long]

/-- Settles O20: the two logs are `xfer_initEvents` at the default schedule, and the counts are of the events of
`initEvents`. -/
theorem initDefaultTransferLog : Obligations.InitDefaultTransferLog := by
  obtain ⟨t, ht, htrace⟩ := exec_init_resetWith (c := Cfg.standard) (by decide)
  obtain ⟨u, hu, hutrace⟩ := exec_init_resetWith (c := { Cfg.standard with pBacklight := true }) (by decide)
  refine ⟨t, u, ht, hu, ?_⟩
  rw [htrace, hutrace, xfer_initEvents, xfer_initEvents]
  exact ⟨rfl, rfl, rfl, rfl, rfl, by decide, by decide, by decide, by decide⟩

end Sys2Proof.Machine
end

section
/-! PROOF. Addresses and the writers GOTO, DEF_CHAR and WRITE_STRING (R180 to R186): the address commands' bytes, the checks
of the operands, and a request that ends in data writes. -/

namespace Sys2Proof.Machine

open Claims

/-! The address commands' bytes (R80, R180, R183) -/

theorem Cfg.legal_geometry {c : Cfg} (h : c.legal = true) :
    c.pLines ≤ 4 ∧ c.pCols ≤ if c.pLines ≤ 2 then 40 else 20 := by
  simp only [Cfg.legal, Cfg.legalGeometry, Bool.and_eq_true, decide_eq_true_eq] at h
  obtain ⟨⟨⟨⟨⟨⟨⟨⟨-, hlines⟩, -⟩, hcols⟩, -⟩, -⟩, -⟩, -⟩, -⟩ := h
  refine ⟨hlines, ?_⟩
  by_cases h2 : c.pLines ≤ 2
  · simpa [h2] using hcols
  · simpa [h2] using hcols

/-- Only a block of at most two lines has more than 20 columns, so no address passes that of row 2, column 40 (R7, R180). -/
theorem address_le {c : Cfg} {row col : Nat} (h : c.legal = true) (hrow : row ≤ c.pLines) (hcol : col ≤ c.pCols) :
    address row col ≤ 0x67 := by
  obtain ⟨hlines, hcols⟩ := Cfg.legal_geometry h
  unfold address
  split at hcols
  · rw [if_pos (by omega)]
    omega
  · split
    · omega
    · omega

/-- An operand below the class's opcode bit is added to it (R80, R81). -/
theorem toNat_opcode_or {cls a : Byte} {k : Nat} (hcls : cls.toNat = 2 ^ k) (ha : a.toNat < 2 ^ k) :
    (cls ||| a).toNat = 2 ^ k + a.toNat := by
  have hor := Nat.two_pow_add_eq_or_of_lt ha 1
  rw [Nat.mul_one] at hor
  rw [BitVec.toNat_or, hcls, hor]

theorem toNat_setDdram_or {h : HDTable} {a : Nat} (hl : h.legal = true) (ha : a < 0x80) :
    (h.setDdram ||| BitVec.ofNat 8 a).toNat = 0x80 + a := by
  have hofNat : (BitVec.ofNat 8 a).toNat = a := by
    rw [BitVec.toNat_ofNat]
    omega
  have hcls : h.setDdram.toNat = 2 ^ 7 := by rw [(HDTable.legal_address hl).2]; rfl
  have hor := toNat_opcode_or hcls (hofNat.trans_lt ha)
  omega

theorem toNat_setCgram_or {h : HDTable} {index : Byte} (hl : h.legal = true) (hi : index.toNat ≤ 7) :
    (h.setCgram ||| index <<< 3).toNat = 0x40 + index.toNat * 8 := by
  have hshift : (index <<< 3).toNat = index.toNat * 8 := by
    rw [BitVec.toNat_shiftLeft, Nat.shiftLeft_eq]
    omega
  have hcls : h.setCgram.toNat = 2 ^ 6 := by rw [(HDTable.legal_address hl).1]; rfl
  have hor := toNat_opcode_or (a := index <<< 3) hcls (by omega)
  omega

/-! The checks of the operands (R181, R183) -/

theorem checkPosition_row {c : Cfg} {row : Byte} (h : row.toNat < 1 ∨ c.pLines < row.toNat) (col : Byte) :
    checkPosition c row col = some .rowRange := by
  rw [checkPosition, if_pos h]

section
variable {c : Cfg} {row col : Byte} (hlo : 1 ≤ row.toNat) (hhi : row.toNat ≤ c.pLines)
include hlo hhi

theorem checkPosition_col (h : col.toNat < 1 ∨ c.pCols < col.toNat) : checkPosition c row col = some .colRange := by
  rw [checkPosition, if_neg (by omega), if_pos h]

theorem checkPosition_inRange (hlo' : 1 ≤ col.toNat) (hhi' : col.toNat ≤ c.pCols) : checkPosition c row col = none := by
  rw [checkPosition, if_neg (by omega), if_neg (by omega)]
end

theorem checkChar_index {index : Byte} (h : 7 < index.toNat) (pattern : List Byte) :
    checkChar index pattern = some .charIndex := by
  rw [checkChar, if_pos h]

section
variable {index : Byte} {pattern : List Byte} (hi : index.toNat ≤ 7)
include hi

theorem checkChar_length (h : pattern.length ≠ 8) : checkChar index pattern = some .patternLen := by
  rw [checkChar, if_neg (Nat.not_lt.2 hi), if_pos h]

theorem checkChar_legal (h : pattern.length = 8) : checkChar index pattern = none := by
  rw [checkChar, if_neg (Nat.not_lt.2 hi), if_neg (not_not.2 h)]
end

/-- Settles O31: each clause names the first check that fails. -/
theorem gotoFaultsOutOfRange : Obligations.GotoFaultsOutOfRange := by
  intro s row col hs
  have fault {cause : Cause} (hown : checkPosition s.cfg row col = some cause) :
      exec (.goto row col) s = .next (s.faulted cause.code 0x04#8) :=
    runRequest_own_fault 0x04#8 (r := reqGoto row col) rfl hs (by decide) (by decide) hown
  exact ⟨fun hrow => fault (checkPosition_row hrow col), fun hlo hhi hcol => fault (checkPosition_col hlo hhi hcol)⟩

/-- Settles O32: each clause names the first check that fails. -/
theorem defCharFaultsOnIndexOrLength : Obligations.DefCharFaultsOnIndexOrLength := by
  intro s index pattern hs
  have fault {cause : Cause} (hown : checkChar index pattern = some cause) :
      exec (.defChar index pattern) s = .next (s.faulted cause.code 0x05#8) :=
    runRequest_own_fault 0x05#8 (r := reqDefChar index pattern) rfl hs (by decide) (by decide) hown
  exact ⟨fun hi => fault (checkChar_index hi pattern), fun hi hlen => fault (checkChar_length hi hlen)⟩

/-! GOTO in range (R182) -/

/-- Settles O13: the checks pass, the body is one command, and the address stays below the opcode bit. -/
theorem gotoSendsTheAddress : Obligations.GotoSendsTheAddress := by
  intro s row col hs hrow hrow' hcol hcol'
  have haddress := address_le hs.legal hrow' hcol'
  exact ⟨toNat_setDdram_or (Cfg.legal_hd hs.legal) (by omega),
    runRequest_cmd (r := reqGoto row col) hs.legal
      (accept_of_ready 0x04#8 rfl hs (by decide) (by decide) (checkPosition_inRange hrow hrow' hcol hcol')) rfl⟩

/-! A request that ends in data writes (R183, R185) -/

theorem wordEvents_onBus (c : Cfg) (w : Word10) : ∀ e ∈ wordEvents c w, e.onBus = true := by
  unfold wordEvents
  split
  · simp [dataEvents, byteEvents, nibEvents, Event.onBus]
  · rw [cmdEvents_eq_cmdSent]
    exact cmdSent_onBus c _

/-- Data words send their bytes in order (R108). -/
theorem flatMap_wordEvents_dataWord (c : Cfg) (bs : List Byte) :
    (bs.map dataWord).flatMap (wordEvents c) = bs.flatMap dataSent := by
  simp only [List.flatMap_map, wordEvents_dataWord, dataEvents_eq_dataSent]

/-- A data write's events do what DATA does (R108). -/
theorem emitAll_dataSent (s : State) (b : Byte) : s.emitAll (dataSent b) = wordSent s true b := emitAll_dataEvents s b

@[simp] theorem dataSent_length (b : Byte) : (dataSent b).length = 16 := rfl

/-- Once a request is over, events that end in a data write leave the lines as that write does, whatever words went before
(R108, R212). -/
theorem finish_emitAll_endingInData {s : State} {pre : List Event} (h : ∀ e ∈ pre, e.onBus = true) (code b : Byte) :
    ((s.begin code).emitAll (pre ++ dataSent b)).finish = s.sent (pre ++ dataSent b) true (low b) := by
  obtain ⟨hdir, hbl⟩ := emitAll_onBus h (s.begin code)
  have hport : drivePort s.cfg (low b) ((s.begin code).emitAll pre).port = drivePort s.cfg (low b) s.port :=
    drivePort_emitAll (s.begin code) (low b) pre
  rw [State.emitAll_append, emitAll_dataSent]
  simp [wordSent, State.finish, State.sent, hdir, hbl, hport]

/-- An accepted request whose body is some words and then data writes, at least one (R183, R185, R212). -/
theorem runRequest_endingInData {r : Req} {s : State} {ws : List Word10} {bs : List Byte} {b : Byte}
    (hl : s.cfg.legal = true) (ha : accept r s = .accepted)
    (hbody : r.body s.cfg = (ws ++ bs.map dataWord).map .word) (hb : bs.getLast? = some b) :
    runRequest r s = .next (s.sent (ws.flatMap (wordEvents s.cfg) ++ bs.flatMap dataSent) true (low b)) := by
  obtain ⟨front, rfl⟩ := List.getLast?_eq_some_iff.1 hb
  have hpre : ∀ e ∈ (ws ++ front.map dataWord).flatMap (wordEvents s.cfg), e.onBus = true := by
    intro e he
    obtain ⟨w, -, hw⟩ := List.mem_flatMap.1 he
    exact wordEvents_onBus s.cfg w e hw
  have hfinish := finish_emitAll_endingInData (s := s) hpre r.code b
  rw [runRequest_accepted hl ha, hbody, runOps_words]
  simpa [flatMap_wordEvents_dataWord, dataEvents_eq_dataSent] using hfinish

/-- Settles O12: the body is the data writes, and without a byte it is empty. -/
theorem writeStringSendsEachByte : Obligations.WriteStringSendsEachByte := by
  intro s bs hs
  have ha : accept (reqWriteString bs) s = .accepted := accept_of_ready 0x03#8 rfl hs (by decide) (by decide) rfl
  cases hb : bs.getLast? with
  | none =>
    obtain rfl := List.getLast?_eq_none_iff.1 hb
    exact runRequest_accepted hs.legal ha
  | some b => exact runRequest_endingInData (ws := []) hs.legal ha List.map_map.symm hb

/-- DEF_CHAR with a legal index and eight bytes (R183). -/
theorem exec_defChar {s : State} {index b : Byte} {pattern : List Byte} (hs : s.Ready) (hi : index.toNat ≤ 7)
    (hlen : pattern.length = 8) (hb : pattern.getLast? = some b) :
    exec (.defChar index pattern) s = .next
      (s.sent (cmdSent s.cfg (s.cfg.hd.setCgram ||| index <<< 3) ++ pattern.flatMap dataSent) true (low b)) := by
  have ha : accept (reqDefChar index pattern) s = .accepted :=
    accept_of_ready 0x05#8 rfl hs (by decide) (by decide) (checkChar_legal hi hlen)
  have hrun := runRequest_endingInData (ws := [cmdWord (cgramByte s.cfg index)]) hs.legal ha
    (congrArg (_ :: ·) List.map_map.symm) hb
  rwa [List.flatMap_singleton, wordEvents_cmdWord, cmdEvents_eq_cmdSent] at hrun

/-- Settles O14: the eight data writes are the pattern's, written out. -/
theorem defCharSendsTheEightRows : Obligations.DefCharSendsTheEightRows := by
  intro s index p0 p1 p2 p3 p4 p5 p6 p7 hs hi
  refine ⟨toNat_setCgram_or (Cfg.legal_hd hs.legal) hi, (exec_defChar (b := p7) hs hi rfl rfl).trans ?_⟩
  simp only [List.flatMap_cons, List.flatMap_nil, List.append_nil, List.append_assoc]

end Sys2Proof.Machine
end

section
/-! PROOF. The space the next data write goes to (R53, R184, R247). -/

namespace Sys2Proof.Machine

open Claims

/-! The log of data writes (R113) -/

namespace Logs

/-- Between two transfers the log does not depend on the lines. -/
theorem xferFrom_eq {es : List Event} {xs : List Xfer} (h : Logs es xs) (l : Levels) : xferFrom l [] es = xs := by
  obtain ⟨l', hl'⟩ := h l []
  simpa [xferFrom] using hl'

/-- One data byte is one entry (R108). -/
theorem data (b : Byte) : Logs (dataSent b) [.d b] := fun l rest =>
  ⟨{ l with rs := some true, rw := some false, dbus := some (low b), up := false },
    congrArg (fun x => Xfer.d x :: xferFrom _ [] rest) (nibbles_append b)⟩

theorem datas (bs : List Byte) : Logs (bs.flatMap dataSent) (bs.map .d) := by
  induction bs with
  | nil => exact nil
  | cons b bs ih => exact (data b).append ih

end Logs

/-! The addressed space (R53) -/

/-- Data writes select no space. -/
theorem dataSpace_datas (h : HDTable) (cur : Option Space) (bs : List Byte) : dataSpace h cur (bs.map .d) = cur := by
  induction bs with
  | nil => rfl
  | cons b bs ih => exact ih

/-- A command that selects a space, and any data writes after it, leave that space addressed, whatever was before. -/
theorem dataSpace_of_logs {h : HDTable} {op : Byte} {k : Wait} {space : Space} {es : List Event} {bs : List Byte}
    (hlog : Logs es (.c op k :: bs.map .d)) (hspace : spaceOf h op = some space) (l : Levels) (cur : Option Space) :
    dataSpace h cur (xferFrom l [] es) = some space := by
  rw [hlog.xferFrom_eq l, dataSpace_c hspace, dataSpace_datas]

/-- A byte that is clear or home, and no Set-CGRAM-Address command, selects DDRAM (R184, R247). -/
theorem spaceOf_clear_or_home {h : HDTable} {op : Byte} (hl : h.legal = true)
    (hop : (isClear h op || isHome h op) = true) (hne : op.toNat / 0x40 ≠ 1) : spaceOf h op = some .ddram := by
  rw [spaceOf_eq hl]
  by_cases h8 : 0x80 ≤ op.toNat
  · rw [if_pos h8]
  · rw [if_neg h8, if_neg (by omega), if_pos hop]

/-- Settles O59: each request sends one command that selects the space, and DEF_CHAR only data writes after it. -/
theorem defCharLeavesCgramAddressed : Obligations.DefCharLeavesCgramAddressed := by
  intro s l cur index row col pattern hs
  have hl := Cfg.legal_hd hs.legal
  obtain ⟨hclear, hhome⟩ := clearAndHomeWaitLong s hs
  refine ⟨fun hi hlen => ?_, fun hrow hrow' hcol hcol' => ?_, fun hne => ?_, fun hne => ?_⟩
  · have hb : pattern.getLast? = some (pattern.getLast (by rintro rfl; cases hlen)) := List.getLast?_eq_some_getLast _
    have hop := toNat_setCgram_or hl hi
    have hspace : spaceOf s.cfg.hd (s.cfg.hd.setCgram ||| index <<< 3) = some .cgram := by
      rw [spaceOf_eq hl, if_neg (by omega), if_pos (by omega)]
    exact ⟨_, _, exec_defChar hs hi hlen hb, rfl, dataSpace_of_logs ((Logs.cmd _ _).append (.datas pattern)) hspace l cur⟩
  · obtain ⟨hop, hexec⟩ := gotoSendsTheAddress s row col hs hrow hrow' hcol hcol'
    have hspace : spaceOf s.cfg.hd (s.cfg.hd.setDdram ||| BitVec.ofNat 8 (address row.toNat col.toNat)) =
        some .ddram := by
      rw [spaceOf_eq hl, if_pos (by omega)]
    exact ⟨_, _, hexec, rfl, dataSpace_of_logs (bs := []) (Logs.cmd _ _) hspace l cur⟩
  · exact ⟨_, _, hclear, rfl, dataSpace_of_logs (bs := []) (Logs.byte (.inr rfl) _)
      (spaceOf_clear_or_home hl (by simp) hne) l cur⟩
  · exact ⟨_, _, hhome, rfl, dataSpace_of_logs (bs := []) (Logs.byte (.inr rfl) _)
      (spaceOf_clear_or_home hl (by simp) hne) l cur⟩

end Sys2Proof.Machine
end

section
/-! PROOF. Faults (R212 to R214): a halted block ignores requests and keeps its fault, and whatever records a fault does
nothing else; and the host's own port bits (R228). -/

namespace Sys2Proof.Machine

/-! A halted block (R214) -/

/-- A well-formed instruction with a request code, reserved or not, is run whole as a request with that code (R72, R74). -/
theorem exec_of_wf_request {i : Instr} {code : Byte} (hi : requestCode i = some code) (hwf : i.wf = true) :
    ∃ r : Req, r.code = code ∧ ∀ s, exec i s = runRequest r s := by
  by_cases hcode : code.toNat ≤ 0x0D
  · exact exec_of_requestCode hi hwf hcode
  · have hreserved (s : State) : runReserved code s = runRequest ⟨code, fun _ => none, fun _ => []⟩ s := if_neg hcode
    cases i with
    | init | sendCmd | sendData | writeString | goto | defChar | clear | home | setDisplay | setCursor | setBlink
    | setBacklight | setEntryMode | setFlag =>
      cases hi
      exact absurd (by decide) hcode
    | reserved0E0F | reserved101F | reserved203F | reserved407F | reserved80FF =>
      cases hi
      exact ⟨_, rfl, hreserved⟩
    | _ => cases hi

/-- Settles O27: FAULT.V is the first of the acceptance checks, whatever the code (R212). -/
theorem haltedBlockIgnoresRequests : Obligations.HaltedBlockIgnoresRequests := by
  intro s i code hl hv hwf hi
  obtain ⟨r, -, hexec⟩ := exec_of_wf_request hi hwf
  have hignored : accept r s = .ignored := (accept_eq_ignored_iff r s).2 hv
  simp [hexec, runRequest, hl, hignored]

/-- No operation of a request writes a FAULT that is set (R30, R213). -/
theorem opsKeep_setFault {f : FaultReg} (hf : f.v = true) (ops : List Op) : OpsKeep ops (·.fault = f) where
  emit s e hs := (s.emit_fault e).trans hs
  phase _ _ _ hs := hs
  zeroShadow _ hs := hs
  flag _ _ _ _ _ _ _ _ hs := hs
  raise s c code hs := by rwa [raise_of_fault (hs ▸ hf)]
  seq _ _ _ _ _ hs := hs

/-- Settles O44: `raise` keeps a fault that is set, and nothing else but a reset writes FAULT. -/
theorem firstFaultIsKept : Obligations.FirstFaultIsKept := by
  intro s t hno hv h
  obtain ⟨-, acts, ⟨hreset, -⟩ | hstep⟩ := step_next h
  · simp [hno] at hreset
  · exact hstep.keeps (opsKeep_setFault hv) (fun _ _ hs => hs) rfl

/-! An accepted request records no fault (R213) -/

theorem idle_of_accepted {r : Req} {s : State} (hl : s.cfg.legal = true) (ha : accept r s = .accepted) : s.Idle := by
  obtain ⟨hv, hb, -⟩ := (accept_eq_accepted_iff r s).1 ha
  exact ⟨hl, hv, hb⟩

/-- Only INIT is accepted outside phase Ready (R173). -/
theorem ready_of_accepted {r : Req} {s : State} (hl : s.cfg.legal = true) (ha : accept r s = .accepted)
    (hinit : r.code ≠ 0#8) : s.Ready := by
  have hphase := accept_phase ha
  simp only [checkPhase, hinit] at hphase
  exact ⟨idle_of_accepted hl ha, by simpa using hphase⟩

theorem checkWritten_eq_none_iff {sh : Shadow} {i : InstrClass} :
    checkWritten sh i = none ↔ ∃ v, sh.get i = some v := by
  cases h : sh.get i <;> simp [checkWritten, h]

/-- SET_FLAG's checks let pass only a class byte whose slot can be read (R134, R26). -/
theorem written_of_checkFlag {c : Cfg} {sh : Shadow} {cls bits : Byte} {en : Bool}
    (h : checkFlag c sh cls bits en = none) : ∃ i, cls = i.opcode c.hd ∧ checkWritten sh i = none := by
  cases hi : slotOf c.hd cls with
  | none => simp [checkFlag, hi] at h
  | some i =>
    refine ⟨i, opcode_of_slotOf hi, ?_⟩
    simp only [checkFlag, hi] at h
    split at h
    · simp at h
    · split at h
      · simp at h
      · split at h
        · simp at h
        · exact h

/-- An accepted request whose body is one FLAG on a slot that its checks found written. -/
theorem runRequest_flag_fault {r : Req} {s t : State} {i : InstrClass} {bits : Byte} {en : Bool}
    (hl : s.cfg.legal = true) (ha : accept r s = .accepted) (hbody : r.body s.cfg = [.flag (i.opcode s.cfg.hd) bits en])
    (hw : checkWritten s.shadow i = none) (h : runRequest r s = .next t) : t.fault = s.fault := by
  obtain ⟨v, hv⟩ := checkWritten_eq_none_iff.1 hw
  rw [runRequest_flag hl ha hbody hv] at h
  cases h
  rfl

/-- R212's checks find every slot that the body's FLAGs read written (R26), so no FLAG of an accepted request faults. -/
theorem runRequest_accepted_fault {i : Instr} {r : Req} {s t : State} (hr : requestOf i = some r)
    (hl : s.cfg.legal = true) (ha : accept r s = .accepted) (h : runRequest r s = .next t) : t.fault = s.fault := by
  have hown := accept_own ha
  obtain (rfl | ⟨on, rfl⟩ | ⟨on, rfl⟩ | ⟨on, rfl⟩ | ⟨inc, shift, rfl⟩ | ⟨cls, bits, en, rfl⟩) | hbody :=
    request_sends hr s.cfg
  · cases hr
    have hphase : s.phase = 0#4 := by simpa [checkPhase, reqInit] using accept_phase ha
    cases (exec_init (idle_of_accepted hl ha) hphase).symm.trans h
    simp
  · cases hr
    exact runRequest_flag_fault (i := .displayControl) hl ha rfl hown h
  · cases hr
    exact runRequest_flag_fault (i := .displayControl) hl ha rfl hown h
  · cases hr
    exact runRequest_flag_fault (i := .displayControl) hl ha rfl hown h
  · cases hr
    obtain ⟨v, hv⟩ := checkWritten_eq_none_iff.1 hown
    obtain ⟨hexec, -⟩ := entryModeSendsTwoCommands s inc shift v (ready_of_accepted hl ha (by simp [reqSetEntryMode])) hv
    cases hexec.symm.trans h
    rfl
  · cases hr
    obtain ⟨i, rfl, hw⟩ := written_of_checkFlag hown
    exact runRequest_flag_fault hl ha rfl hw h
  · rw [runRequest_accepted hl ha, runOps_of_events (by simpa using hbody)] at h
    cases h
    simp

/-! Faults are precise (R213) -/

/-- An instruction keeps FAULT, or writes it and nothing else (R213). -/
theorem exec_fault_cases {i : Instr} {s t : State} (h : exec i s = .next t) :
    t.fault = s.fault ∨ ∃ f, t = { s with fault := f } := by
  obtain ⟨r, hr, he, -⟩ | ⟨code, he, -⟩ | ⟨-, ⟨w, he⟩ | he⟩ := instr_cases i s
  · rw [he] at h
    obtain ⟨-, hc⟩ | ⟨-, -, hc⟩ | ⟨c, -, -, -, hc⟩ | ⟨hl, ha, -⟩ := runRequest_cases r s
    · simp [hc] at h
    · cases hc.symm.trans h
      exact .inl rfl
    · cases hc.symm.trans h
      exact .inr ⟨_, rfl⟩
    · exact .inl (runRequest_accepted_fault hr hl ha h)
  · obtain rfl | ⟨-, c, rfl⟩ := runReserved_next (he ▸ h)
    · exact .inl rfl
    · exact .inr ⟨_, rfl⟩
  · obtain ⟨-, hc⟩ | ⟨-, -, hc⟩ | ⟨-, -, hc⟩ := sendWord_cases w s
    · simp [he, hc] at h
    · simp [he, hc] at h
    · cases hc.symm.trans (he.symm.trans h)
      exact .inl (State.emitAll_fault s _)
  · rw [he, sendLone] at h
    split at h
    · simp at h
    · cases h
      exact .inl (State.emitAll_fault s _)

/-- Settles O35: no accepted request and no word sent writes FAULT, and a fault on acceptance writes only FAULT. -/
theorem faultsArePrecise : Obligations.FaultsArePrecise := by
  intro i s t h hne
  obtain heq | ⟨f, rfl⟩ := exec_fault_cases h
  · exact absurd heq hne
  · rfl

/-! The host's own port bits (R228) -/

/-- Settles O60: the mask of a legal port is the data field, and the host's move is tested against it. -/
theorem hostDrivesOnlyItsPortBits : Obligations.HostDrivesOnlyItsPortBits := by
  intro s i b rest hl ha
  rw [step_act hl ha]
  refine ⟨fun hi hout => ?_, fun hlo hhi => ?_⟩
  · have hmask : s.cfg.pDataMask.testBit i = false := by
      rw [testBit_pDataMask hl, decide_eq_false_iff_not]
      omega
    simp [hostAct, writePort, hmask, hi]
  · have hmask : s.cfg.pDataMask.testBit i = true := by simp [testBit_pDataMask hl, hlo, hhi]
    simp [hostAct, writePort, hmask]

end Sys2Proof.Machine
end

section
/-! PROOF. Reset and requests at a block that is not idle (R240, R246), and the configurations that R241 refuses. -/

namespace Sys2Proof.Machine

/-! Reset and a busy block (R240, R246) -/

/-- Settles O2: a reset is a move of the host like any other, and `resetState` starts from the reset state. -/
theorem resetAbandonsTheRequest : Obligations.ResetAbandonsTheRequest := by
  intro s rest hl ha
  exact step_act hl ha

/-- Settles O28: BUSY is checked before the code, the phase and the operands (R212). -/
theorem busyBlockFaultsEveryRequest : Obligations.BusyBlockFaultsEveryRequest := by
  intro s i code hl hv hb hwf hi
  obtain ⟨r, rfl, hexec⟩ := exec_of_wf_request hi hwf
  have haccept : accept r s = .fault .busy := by simp [accept, hv, hb]
  simp [hexec, runRequest, hl, haccept, raise_of_noFault hv, State.faulted, Cause.code]

/-! The flags of a class, as a list (R79) -/

/-- The flags that the mask of a class is made of (R79, R130). -/
def InstrClass.flags (h : HDTable) : InstrClass → List Byte
  | .entryMode => [h.emId, h.emS]
  | .displayControl => [h.dcD, h.dcC, h.dcB]
  | .cursorDisplayShift => [h.shSc, h.shRl]
  | .functionSet => [h.fsDl, h.fsN, h.fsF]
  | .setCgramAddr => []
  | .setDdramAddr => []

/-- All bits of some bytes. -/
def orAll : List Byte → Byte
  | [] => 0#8
  | b :: bs => b ||| orAll bs

theorem InstrClass.mask_eq_orAll (h : HDTable) (i : InstrClass) : i.mask h = orAll (i.flags h) := by
  cases i <;> simp [InstrClass.mask, InstrClass.flags, orAll, BitVec.or_assoc]

theorem getLsbD_orAll {bs : List Byte} {k : Nat} : (orAll bs).getLsbD k = true ↔ ∃ b ∈ bs, b.getLsbD k = true := by
  induction bs with
  | nil => simp [orAll]
  | cons b bs ih => simp [orAll, ih]

/-- Bytes below a power of two have all their bits below it. -/
theorem toNat_orAll_lt {bs : List Byte} {k : Nat} (h : ∀ b ∈ bs, b.toNat < 2 ^ k) : (orAll bs).toNat < 2 ^ k := by
  induction bs with
  | nil => exact Nat.two_pow_pos k
  | cons b bs ih =>
    obtain ⟨hb, hbs⟩ := List.forall_mem_cons.1 h
    rw [orAll, BitVec.toNat_or]
    exact Nat.or_lt_two_pow hb (ih hbs)

theorem flagsNamed_eq_orAll (fs : List FlagCall) : flagsNamed fs = orAll (fs.map (·.bits)) := by
  induction fs with
  | nil => rfl
  | cons f fs ih => rw [flagsNamed, ih]; rfl

/-- Each flag of a legal table's toggle class is a bit below the class's opcode (R241). -/
theorem HDTable.legal_flag {h : HDTable} (hl : h.legal = true) {i : InstrClass} {flag : Byte} (hf : flag ∈ i.flags h) :
    flag ≠ 0#8 ∧ flag.toNat < (i.opcode h).toNat := by
  have ofClass {cls : Byte} {flags : List Byte} (hflags : legalFlags cls flags = true) :
      ∀ f ∈ flags, f ≠ 0#8 ∧ f.toNat < cls.toNat := by
    simp only [legalFlags, isFlagBit, Bool.and_eq_true, List.all_eq_true, bne_iff_ne, decide_eq_true_eq] at hflags
    intro f hf
    obtain ⟨⟨hne, -⟩, hlt⟩ := hflags.1 f hf
    exact ⟨hne, hlt⟩
  simp only [HDTable.legal, Bool.and_eq_true] at hl
  obtain ⟨⟨⟨⟨-, hem⟩, hdc⟩, hsh⟩, hfs⟩ := hl
  cases i with
  | entryMode => exact ofClass hem flag hf
  | displayControl => exact ofClass hdc flag hf
  | cursorDisplayShift => exact ofClass hsh flag hf
  | functionSet => exact ofClass hfs flag hf
  | setCgramAddr | setDdramAddr => cases hf

theorem InstrClass.toNat_opcode {h : HDTable} (hl : h.legal = true) (i : InstrClass) :
    (i.opcode h).toNat = 2 ^ (i.slot + 2) := by
  rw [HDTable.legal_opcode hl]
  cases i <;> rfl

/-- The mask of a legal table's class lies below the class's opcode (R241, condition 6). -/
theorem HDTable.legal_mask_lt {h : HDTable} (hl : h.legal = true) (i : InstrClass) :
    (i.mask h).toNat < (i.opcode h).toNat := by
  have hop := i.toNat_opcode hl
  rw [hop, i.mask_eq_orAll]
  exact toNat_orAll_lt fun flag hf => hop ▸ (HDTable.legal_flag hl hf).2

/-! The conditions of a legal configuration, as R241 lists them -/

theorem Cfg.legal_size_pos {c : Cfg} (h : c.legal = true) : 1 ≤ c.pLines ∧ 1 ≤ c.pCols := by
  simp only [Cfg.legal, Cfg.legalGeometry, Bool.and_eq_true, decide_eq_true_eq] at h
  obtain ⟨⟨⟨⟨⟨⟨⟨⟨hlines, -⟩, hcols⟩, -⟩, -⟩, -⟩, -⟩, -⟩, -⟩ := h
  exact ⟨hlines, hcols⟩

theorem Cfg.legal_waits {c : Cfg} (h : c.legal = true) :
    c.bAs ≤ c.tAs ∧ c.bPulse ≤ c.tPulse ∧ c.bExec ≤ c.tExec ∧ c.bLong ≤ c.tLong ∧ c.tExec < c.tLong := by
  simp only [Cfg.legal, Cfg.legalWaits, Bool.and_eq_true, decide_eq_true_eq] at h
  obtain ⟨⟨⟨⟨-, ⟨⟨⟨has, hpulse⟩, hexec⟩, hlong⟩, hlt⟩, -⟩, -⟩, -⟩ := h
  exact ⟨has, hpulse, hexec, hlong, hlt⟩

section
variable {cls on off m : Byte} {fs : List FlagCall} (h : legalStep cls on off fs = true) (hm : on ||| off = m)
include h hm

/-- Each call of a legal schedule step (R170, conditions 1 to 3). -/
theorem legalStep_conditions : ∀ f ∈ fs, f.cls = cls ∧ f.bits ≠ 0#8 ∧ f.bits &&& ~~~m = 0#8 ∧
    (if f.en then f.bits &&& off = 0#8 else f.bits &&& on = 0#8) := by
  subst hm
  intro f hf
  simp only [legalStep, Bool.and_eq_true, List.all_eq_true] at h
  have hcall := h.1 f hf
  simp only [FlagCall.legalFor, Bool.and_eq_true, beq_iff_eq, bne_iff_ne] at hcall
  obtain ⟨⟨⟨hcls, hne⟩, htarget⟩, hen⟩ := hcall
  refine ⟨hcls, hne, htarget, ?_⟩
  cases he : f.en with
  | true => simpa [he] using hen
  | false => simpa [he] using hen

/-- Some call of a legal schedule step names a bit of each target flag (R170, condition 4). -/
theorem legalStep_names {flag : Byte} (hne : flag ≠ 0#8) (hflag : flag &&& ~~~m = 0#8) :
    ∃ f ∈ fs, f.bits &&& flag ≠ 0#8 := by
  subst hm
  simp only [legalStep, Bool.and_eq_true, beq_iff_eq, flagsNamed_eq_orAll] at h
  by_contra hnone
  push Not at hnone
  refine hne (BitVec.eq_of_getLsbD_eq fun k hk => ?_)
  rw [BitVec.getLsbD_zero, Bool.eq_false_iff]
  intro hbit
  have hnamed := and_not_eq_zero_iff.1 h.2 k hk (and_not_eq_zero_iff.1 hflag k hk hbit)
  obtain ⟨bits, hmem, hbits⟩ := getLsbD_orAll.1 hnamed
  obtain ⟨f, hf, rfl⟩ := List.mem_map.1 hmem
  exact absurd hbit (by simp [getLsbD_of_and_eq_zero (hnone f hf) hbits])

end

/-- A legal schedule step whose targets are the flags of class `i` names each of them. -/
theorem legalStep_names_flags {h : HDTable} (hl : h.legal = true) {i : InstrClass} {on off : Byte} {fs : List FlagCall}
    (hstep : legalStep (i.opcode h) on off fs = true) (hm : on ||| off = i.mask h) :
    ∀ flag ∈ i.flags h, ∃ f ∈ fs, f.bits &&& flag ≠ 0#8 := by
  intro flag hf
  refine legalStep_names hstep hm (HDTable.legal_flag hl hf).1 ?_
  rw [i.mask_eq_orAll]
  exact and_not_eq_zero_iff.2 fun k _ hbit => getLsbD_orAll.2 ⟨flag, hf, hbit⟩

/-- Settles O3: a legal configuration meets each condition, so one that breaks a condition is not legal, and no step of it
is taken. -/
theorem illegalConfigurationIsRefused : Obligations.IllegalConfigurationIsRefused := by
  intro s hbroken
  cases hl : s.cfg.legal with
  | false => exact step_of_illegal hl
  | true =>
    have hhd := Cfg.legal_hd hl
    obtain ⟨hlines, hcols⟩ := Cfg.legal_size_pos hl
    obtain ⟨hlines', hcols'⟩ := Cfg.legal_geometry hl
    obtain ⟨h4, h6, h7⟩ := Cfg.legal_schedule hl
    have mask4 : s.cfg.hd.fsN ||| (s.cfg.hd.fsDl ||| s.cfg.hd.fsF) = InstrClass.functionSet.mask s.cfg.hd := by
      simp only [InstrClass.mask]
      ac_rfl
    have mask6 : s.cfg.hd.dcD ||| (s.cfg.hd.dcC ||| s.cfg.hd.dcB) = InstrClass.displayControl.mask s.cfg.hd :=
      (BitVec.or_assoc ..).symm
    have names4 := legalStep_names_flags (i := .functionSet) hhd h4 mask4
    exact absurd ⟨⟨hlines, hlines', hcols, hcols'⟩, Cfg.legal_port hl, Cfg.legal_waits hl,
      legalStep_conditions h4 (by ac_rfl), legalStep_conditions h6 mask6, legalStep_conditions h7 rfl,
      fun flag hf => names4 flag (((List.Perm.swap ..).cons _).mem_iff.1 hf),
      legalStep_names_flags (i := .displayControl) hhd h6 mask6, legalStep_names_flags (i := .entryMode) hhd h7 rfl,
      Cfg.legal_longOps hl, HDTable.legal_opcode hhd, fun i _ => HDTable.legal_mask_lt hhd i⟩ hbroken

end Sys2Proof.Machine
end

section
/-! PROOF. The waits of a trace: their sum, the lower bound of a duration (R254), and their number in INIT (R255). -/

namespace Sys2Proof.Machine

open Claims

/-! The waits of a trace -/

/-- The wait an event is, if it is one (R17). -/
def Event.wait? : Event → Option Wait
  | .wait k => some k
  | .dir _ => none
  | .set _ _ => none
  | .dbus _ => none

/-- The waits of a trace, in order. -/
def waitsOf (es : List Event) : List Wait := es.filterMap Event.wait?

@[simp] theorem waitsOf_append (es fs : List Event) : waitsOf (es ++ fs) = waitsOf es ++ waitsOf fs :=
  List.filterMap_append

/-- The lower bound of a duration is the sum of the waits (R254). -/
theorem lowerBound_eq_sum (c : Cfg) (es : List Event) : lowerBound c es = ((waitsOf es).map (waitTime c)).sum := by
  induction es with
  | nil => rfl
  | cons e es ih =>
    cases e with
    | wait k => exact congrArg (waitTime c k + ·) ih
    | dir | set | dbus => exact ih

theorem count_wait (k : Wait) (es : List Event) : es.count (.wait k) = (waitsOf es).count k := by
  induction es with
  | nil => rfl
  | cons e es ih =>
    cases e with
    | wait j =>
      have hwaits : waitsOf (.wait j :: es) = j :: waitsOf es := rfl
      simp [hwaits, List.count_cons, ih]
    | dir | set | dbus => exact (List.count_cons_of_ne (by simp)).trans ih

/-- The waits of a byte whose last wait is `k`: the address setup, and two for each strobe (R102, R106, R108). -/
def byteWaits (k : Wait) : List Wait := [.as, .pulse, .pulse, .pulse, .pulse, k]

@[simp] theorem waitsOf_byteSent (rs : Bool) (b : Byte) (k : Wait) : waitsOf (byteSent rs b k) = byteWaits k := rfl

theorem sum_byteWaits (c : Cfg) (k : Wait) :
    ((byteWaits k).map (waitTime c)).sum = c.tAs + 4 * c.tPulse + waitTime c k := by
  simp only [byteWaits, waitTime, List.map_cons, List.map_nil, List.sum_cons, List.sum_nil]
  omega

/-- Bytes whose events have the same waits have them as often as there are bytes. -/
theorem waitsOf_flatMap {f : Byte → List Event} {ws : List Wait} {bs : List Byte} (h : ∀ b ∈ bs, waitsOf (f b) = ws) :
    waitsOf (bs.flatMap f) = (List.replicate bs.length ws).flatten := by
  induction bs with
  | nil => rfl
  | cons b bs ih =>
    obtain ⟨hb, hbs⟩ := List.forall_mem_cons.1 h
    rw [List.flatMap_cons, waitsOf_append, hb, ih hbs, List.length_cons, List.replicate_succ, List.flatten_cons]

/-- A command that is no long operation ends in the short wait (R107). -/
theorem cmdSent_of_notMem {c : Cfg} {op : Byte} (h : op ∉ c.pLongOps) : cmdSent c op = byteSent false op .exec := by
  simp [cmdSent, h]

/-! Durations (R254) -/

theorem lowerBound_append (c : Cfg) (es fs : List Event) :
    lowerBound c (es ++ fs) = lowerBound c es + lowerBound c fs := by
  simp [lowerBound_eq_sum]

theorem lowerBound_byteSent (c : Cfg) (rs : Bool) (b : Byte) (k : Wait) :
    lowerBound c (byteSent rs b k) = c.tAs + 4 * c.tPulse + waitTime c k := by
  rw [lowerBound_eq_sum, waitsOf_byteSent, sum_byteWaits]

/-- Each data write takes the short wait (R108). -/
theorem lowerBound_dataSents (c : Cfg) (bs : List Byte) :
    lowerBound c (bs.flatMap dataSent) = bs.length * (c.tAs + 4 * c.tPulse + c.tExec) := by
  rw [lowerBound_eq_sum, waitsOf_flatMap (f := dataSent) fun b _ => waitsOf_byteSent true b .exec]
  simp [List.sum_flatten, sum_byteWaits, waitTime]

theorem exec_writeString_trace {s : State} (hs : s.Ready) (bs : List Byte) :
    ∃ t, exec (.writeString bs) s = .next t ∧ t.trace = s.trace ++ bs.flatMap dataSent := by
  refine ⟨_, writeStringSendsEachByte s bs hs, ?_⟩
  cases hb : bs.getLast? with
  | none => simp [List.getLast?_eq_none_iff.1 hb]
  | some b => rfl

/-- Settles O58: the events of each request are bytes sent, all with the short wait but CLEAR's (R107, R108). -/
theorem requestDurations : Obligations.RequestDurations := by
  intro s op b bs index pattern hs
  have short (rs : Bool) (x : Byte) := lowerBound_byteSent s.cfg rs x .exec
  refine ⟨fun hop => ?_, ?_, ?_, ?_, fun hi hlen hop => ?_⟩
  · exact ⟨_, _, sendCmdSendsTheByte s op hs, rfl, by rw [cmdSent_of_notMem hop, short, waitTime]⟩
  · exact ⟨_, _, (clearAndHomeWaitLong s hs).1, rfl, lowerBound_byteSent ..⟩
  · exact ⟨_, _, sendDataSendsTheByte s b hs, rfl, short true b⟩
  · obtain ⟨t, ht, htrace⟩ := exec_writeString_trace hs bs
    exact ⟨t, _, ht, htrace, lowerBound_dataSents s.cfg bs⟩
  · have hb : pattern.getLast? = some (pattern.getLast (by rintro rfl; cases hlen)) := List.getLast?_eq_some_getLast _
    refine ⟨_, _, exec_defChar hs hi hlen hb, rfl, ?_⟩
    rw [lowerBound_append, cmdSent_of_notMem hop, short, waitTime, lowerBound_dataSents, hlen]
    omega

/-! INIT's waits (R255) -/

/-- The bytes of a schedule step have their class's opcode bit, bit 2 or a higher one (R80, R131). -/
theorem four_le_of_mem_stepBytes {h : HDTable} (hl : h.legal = true) {i : InstrClass} {v x : Byte} {fs : List FlagCall}
    (hx : x ∈ stepBytes h i v fs) : 4 ≤ x.toNat := by
  obtain ⟨w, -, rfl⟩ := List.mem_map.1 hx
  calc 4 ≤ 2 ^ (i.slot + 2) := Nat.pow_le_pow_right (n := 2) (i := 2) (by decide) (Nat.le_add_left ..)
    _ = (i.opcode h).toNat := (i.toNat_opcode hl).symm
    _ ≤ (i.opcode h ||| w).toNat := by rw [BitVec.toNat_or]; exact Nat.left_le_or

/-- A schedule step sends one short command a call, under the default long operations (R13, R170). -/
theorem waitsOf_scheduleStep {c : Cfg} (hl : c.legal = true) (hlong : c.pLongOps = [0x01#8, 0x02#8, 0x03#8])
    (i : InstrClass) (fs : List FlagCall) :
    waitsOf ((stepBytes c.hd i 0#8 fs).flatMap (cmdSent c)) = (List.replicate fs.length (byteWaits .exec)).flatten := by
  rw [waitsOf_flatMap (ws := byteWaits .exec), stepBytes_length]
  intro x hx
  have hge := four_le_of_mem_stepBytes (Cfg.legal_hd hl) hx
  have hshort : x ∉ c.pLongOps := by
    rw [hlong]
    intro hmem
    have hlt : ∀ y ∈ [0x01#8, 0x02#8, 0x03#8], y.toNat < 4 := by decide
    exact absurd (hlt x hmem) (Nat.not_lt.2 hge)
  rw [cmdSent_of_notMem hshort, waitsOf_byteSent]

/-- INIT's waits: the lone nibble's, a short command's for each call, a long command's for CLEAR and for HOME. -/
theorem waitsOf_initEvents {c : Cfg} (hl : c.legal = true) (hlong : c.pLongOps = [0x01#8, 0x02#8, 0x03#8]) :
    waitsOf (initEvents c) = [.as, .pulse, .pulse, .exec] ++
      (List.replicate (c.initSchedule.step4.length + c.initSchedule.step6.length + c.initSchedule.step7.length)
        (byteWaits .exec)).flatten ++ byteWaits .long ++ byteWaits .long := by
  obtain ⟨hclear, hhome⟩ := Cfg.legal_longOps hl
  have hdir : waitsOf [.dir (outputLines c)] = [] := rfl
  have hlone : waitsOf loneEvents = [.as, .pulse, .pulse, .exec] := rfl
  have hbl : waitsOf (if c.pBacklight then [.set .bl c.pBlOnLevel] else []) = [] := by
    split
    · rfl
    · rfl
  simp only [initEvents, waitsOf_append, hdir, hlone, hbl, waitsOf_scheduleStep hl hlong, cmdSent_of_mem hclear,
    cmdSent_of_mem hhome, waitsOf_byteSent]
  simp [← List.replicate_append_replicate]

/-- Settles O22: INIT's waits, counted kind by kind; the legal HD table alone keeps the schedule's bytes short, so the
standard one is not needed. -/
theorem initWaitCounts : Obligations.InitWaitCounts := by
  intro c hl _ hlong
  obtain ⟨t, ht, htrace⟩ := exec_init_resetWith hl
  refine ⟨t, ht, ?_⟩
  simp only [htrace, count_wait, waitsOf_initEvents hl hlong, List.count_append, List.count_flatten, List.map_replicate,
    List.sum_replicate, byteWaits]
  simp +arith

end Sys2Proof.Machine
end

section
/-! PROOF. The encodings (R71 to R78): a word or a request that decodes encodes back to its bits, and decoding inverts
encoding. -/

namespace Sys2Proof.Machine

/-! Controller words (R76, R78, R82): the leading one selects the row, and the fields are the bits below it -/

theorem getLsbD_bitAt {k : Nat} (hk : k < 10) (b : Bool) (i : Nat) : (bitAt k b).getLsbD i = (b && decide (k = i)) := by
  cases b with
  | false => simp [bitAt]
  | true =>
    have htwo : bitAt k true = BitVec.twoPow 10 k := BitVec.eq_of_toNat_eq (by simp [bitAt, BitVec.toNat_twoPow])
    simp [htwo, BitVec.getLsbD_twoPow, hk]

/-- The bits of a word below bit `k`. -/
def lowBits (k : Nat) (w : Word10) : Word10 := (w.setWidth k).setWidth 10

theorem lowBits_ten (w : Word10) : lowBits 10 w = w := by simp [lowBits]

@[simp] theorem lowBits_zero (w : Word10) : lowBits 0 w = 0#10 := by simp [lowBits, BitVec.of_length_zero]

/-- The highest of the low bits is a Boolean field in front of the others. -/
theorem lowBits_succ (w : Word10) (k : Nat) (hk : k < 10 := by decide) :
    lowBits (k + 1) w = bitAt k (w.getLsbD k) ||| lowBits k w := by
  refine BitVec.eq_of_getLsbD_eq fun i hi => ?_
  simp only [lowBits, BitVec.getLsbD_or, BitVec.getLsbD_setWidth, getLsbD_bitAt hk, hi]
  obtain h | h | h := Nat.lt_trichotomy i k
  · simp [h, h.ne', Nat.lt_succ_of_lt h]
  · simp [h]
  · simp [h.ne, h.not_gt, Nat.not_lt.2 h]

theorem lowBits_one (w : Word10) : lowBits 1 w = bitAt 0 (w.getLsbD 0) := by simp [lowBits_succ w 0]

/-- `r` is an instruction of the table whose bits are the word `w`. -/
def IsRowOf (w : Word10) (r : Except DecodeError Instr) : Prop :=
  ∃ i, r = .ok i ∧ i.wf = true ∧ encode i = .word w

theorem isRowOf_ok {w w' : Word10} {i : Instr} (hwf : i.wf = true) (hi : encode i = .word w') (hw : w = w') :
    IsRowOf w (.ok i) := ⟨i, rfl, hwf, hw ▸ hi⟩

/-- One test of the decoder, on a word with no one above bit `k`: a one at bit `k` is the leading one. -/
theorem isRowOf_ite {w : Word10} {k : Nat} {row rest : Except DecodeError Instr} (hk : k < 10) (hw : w = lowBits (k + 1) w)
    (hrow : w = bitAt k true ||| lowBits k w → IsRowOf w row) (hrest : w = lowBits k w → IsRowOf w rest ∨ w = 0#10) :
    IsRowOf w (if w.getLsbD k then row else rest) ∨ w = 0#10 := by
  rw [lowBits_succ w k hk] at hw
  split
  next hone => exact .inl (hrow (hone ▸ hw))
  next hzero => exact hrest (by simpa [Bool.eq_false_of_not_eq_true hzero, bitAt] using hw)

/-- With RS = 1, RW tells the two rows apart (R76, R82). -/
theorem isRowOf_rsHigh {w : Word10} (h : w = bitAt 9 true ||| lowBits 9 w) :
    IsRowOf w (if w.getLsbD 8 then .ok (.hdReadData (w.setWidth 8)) else .ok (.hdWriteData (w.setWidth 8))) := by
  rw [lowBits_succ w 8, ← BitVec.or_assoc] at h
  cases hrw : w.getLsbD 8 with
  | true =>
    rw [hrw] at h
    exact isRowOf_ok rfl rfl h
  | false =>
    rw [hrw] at h
    exact isRowOf_ok rfl rfl h

/-- The decoder's tests in order, from bit 9 down; what is left when they all fail is 0x000. -/
theorem isRowOf_decodeWord (w : Word10) : IsRowOf w (decodeWord w) ∨ w = 0#10 := by
  refine isRowOf_ite (by decide) (lowBits_ten w).symm isRowOf_rsHigh fun hw => ?readBfAddr
  refine isRowOf_ite (by decide) hw (isRowOf_ok rfl rfl) fun hw => ?setDdram
  refine isRowOf_ite (by decide) hw (isRowOf_ok rfl rfl) fun hw => ?setCgram
  refine isRowOf_ite (by decide) hw (isRowOf_ok rfl rfl) fun hw => ?functionSet
  refine isRowOf_ite (by decide) hw (fun h => isRowOf_ok rfl rfl (h.trans ?_)) fun hw => ?shift
  · simp only [lowBits_succ w 4, lowBits_succ w 3, lowBits_succ w 2, ← BitVec.or_assoc]
    rfl
  refine isRowOf_ite (by decide) hw (fun h => isRowOf_ok rfl rfl (h.trans ?_)) fun hw => ?displayControl
  · simp only [lowBits_succ w 3, lowBits_succ w 2, ← BitVec.or_assoc]
    rfl
  refine isRowOf_ite (by decide) hw (fun h => isRowOf_ok rfl rfl (h.trans ?_)) fun hw => ?entryMode
  · simp only [lowBits_succ w 2, lowBits_succ w 1, lowBits_one, ← BitVec.or_assoc]
    rfl
  refine isRowOf_ite (by decide) hw (fun h => isRowOf_ok rfl rfl (h.trans ?_)) fun hw => ?home
  · simp only [lowBits_succ w 1, lowBits_one, ← BitVec.or_assoc]
    rfl
  refine isRowOf_ite (by decide) hw (fun h => isRowOf_ok rfl rfl (h.trans ?_)) fun hw => ?clear
  · rw [lowBits_one]
    rfl
  refine isRowOf_ite (by decide) hw (fun h => isRowOf_ok rfl rfl (h.trans ?_)) fun hw => .inr (hw.trans (lowBits_zero w))
  · rw [lowBits_zero]
    rfl

/-- Settles O49: the leading one selects the row, and only 0x000 has none. -/
theorem everyWordIsOneRow : Obligations.EveryWordIsOneRow := by
  refine ⟨fun w hw => ?_, rfl⟩
  obtain ⟨i, hi, hwf, henc⟩ := (isRowOf_decodeWord w).resolve_right hw
  exact ⟨i, hwf, hi, henc⟩

/-! Reserved request codes (R74) -/

/-- A mask of the bits from bit `k` on tests the value without the bits below. -/
theorem and_highBits_beq_iff {code m v : Byte} (k : Nat) (hm : m = BitVec.allOnes 8 <<< k) :
    (code &&& m == v) = true ↔ code.toNat / 2 ^ k * 2 ^ k = v.toNat := by
  have hand : (code &&& m).toNat = code.toNat / 2 ^ k * 2 ^ k := by
    rw [hm, ← BitVec.shiftLeft_ushiftRight, BitVec.toNat_shiftLeft, BitVec.toNat_ushiftRight, Nat.shiftLeft_eq,
      Nat.shiftRight_eq_div_pow]
    exact Nat.mod_eq_of_lt ((Nat.div_mul_le_self ..).trans_lt code.isLt)
  rw [beq_iff_eq, ← BitVec.toNat_inj, hand]

section
variable {code : Byte}

theorem wf_reserved0E0F_iff : (Instr.reserved0E0F code).wf = true ↔ 0x0E ≤ code.toNat ∧ code.toNat < 0x10 :=
  (and_highBits_beq_iff 1 rfl).trans (by rw [BitVec.toNat_ofNat]; omega)

theorem wf_reserved101F_iff : (Instr.reserved101F code).wf = true ↔ 0x10 ≤ code.toNat ∧ code.toNat < 0x20 :=
  (and_highBits_beq_iff 4 rfl).trans (by rw [BitVec.toNat_ofNat]; omega)

theorem wf_reserved203F_iff : (Instr.reserved203F code).wf = true ↔ 0x20 ≤ code.toNat ∧ code.toNat < 0x40 :=
  (and_highBits_beq_iff 5 rfl).trans (by rw [BitVec.toNat_ofNat]; omega)

theorem wf_reserved407F_iff : (Instr.reserved407F code).wf = true ↔ 0x40 ≤ code.toNat ∧ code.toNat < 0x80 :=
  (and_highBits_beq_iff 6 rfl).trans (by rw [BitVec.toNat_ofNat]; omega)

theorem wf_reserved80FF_iff : (Instr.reserved80FF code).wf = true ↔ 0x80 ≤ code.toNat :=
  (and_highBits_beq_iff 7 rfl).trans (by rw [BitVec.toNat_ofNat]; omega)

/-- A code of a reserved range is a well-formed instruction of its row, and no operand is encoded with it. -/
theorem decodeReserved_encodesBack (h : 0x0D < code.toNat) :
    (decodeReserved code).wf = true ∧ encode (decodeReserved code) = .request [code] := by
  unfold decodeReserved
  split
  · exact ⟨wf_reserved0E0F_iff.2 (by omega), rfl⟩
  · split
    · exact ⟨wf_reserved101F_iff.2 (by omega), rfl⟩
    · split
      · exact ⟨wf_reserved203F_iff.2 (by omega), rfl⟩
      · split
        · exact ⟨wf_reserved407F_iff.2 (by omega), rfl⟩
        · exact ⟨wf_reserved80FF_iff.2 (by omega), rfl⟩

/-- What follows a reserved code is ignored. -/
theorem decodeRequest_reserved (h : 0x0D < code.toNat) (ops : List Byte) :
    decodeRequest (code :: ops) = .ok (decodeReserved code) := by
  simp only [decodeRequest]
  split
  case h_15 => rfl
  all_goals omega

theorem decode_reserved_eq {i : Instr} (h : 0x0D < code.toNat) (hi : decodeReserved code = i) :
    decode (.request [code]) = .ok i := hi ▸ decodeRequest_reserved h []

end

/-! Bit operands, and a request without operands (R73) -/

@[simp] theorem byteBit_bitByte (b : Bool) : byteBit (bitByte b) = some b := by
  cases b with
  | false => rfl
  | true => rfl

theorem eq_bitByte_of_byteBit {x : Byte} {b : Bool} (h : byteBit x = some b) : x = bitByte b := by
  unfold byteBit at h
  split at h
  next hx =>
    cases h
    exact hx
  · split at h
    next hx =>
      cases h
      exact hx
    · cases h

theorem decodeBare_ok {code : Byte} {i j : Instr} {ops : List Byte} (h : decodeBare code j ops = .ok i) :
    ops = [] ∧ i = j := by
  cases ops with
  | nil => exact ⟨rfl, (Except.ok.inj h).symm⟩
  | cons => cases h

theorem decodeOn_ok {code : Byte} {mk : Bool → Instr} {i : Instr} {ops : List Byte} (h : decodeOn code mk ops = .ok i) :
    ∃ on, ops = [bitByte on] ∧ i = mk on := by
  unfold decodeOn at h
  split at h
  · split at h
    next hb =>
      cases h
      exact ⟨_, by rw [eq_bitByte_of_byteBit hb], rfl⟩
    · cases h
  · cases h

/-! Requests (R72, R73) -/

theorem eq_ofNat_of_toNat {code : Byte} {k : Nat} (h : code.toNat = k) : code = BitVec.ofNat 8 k := by
  rw [← h, BitVec.ofNat_toNat, BitVec.setWidth_eq]

/-- Every request of the table has exactly the operands it encodes. -/
theorem decodeRequest_encodesBack {code : Byte} {ops : List Byte} {i : Instr} (hcode : code.toNat ≤ 0x0D)
    (h : decodeRequest (code :: ops) = .ok i) : i.wf = true ∧ encode i = .request (code :: ops) := by
  simp only [decodeRequest] at h
  split at h
  -- INIT, CLEAR and HOME have no operand
  case h_1 hk | h_7 hk | h_8 hk =>
    obtain rfl := eq_ofNat_of_toNat hk
    obtain ⟨rfl, rfl⟩ := decodeBare_ok h
    exact ⟨rfl, rfl⟩
  -- SEND_CMD, SEND_DATA, GOTO and DEF_CHAR have byte operands
  case h_2 hk | h_3 hk | h_5 hk | h_6 hk =>
    obtain rfl := eq_ofNat_of_toNat hk
    split at h
    · cases h
      exact ⟨rfl, rfl⟩
    · cases h
  -- WRITE_STRING takes the rest of the frame
  case h_4 hk =>
    obtain rfl := eq_ofNat_of_toNat hk
    cases h
    exact ⟨rfl, rfl⟩
  -- SET_DISPLAY, SET_CURSOR, SET_BLINK and SET_BACKLIGHT have one bit
  case h_9 hk | h_10 hk | h_11 hk | h_12 hk =>
    obtain rfl := eq_ofNat_of_toNat hk
    obtain ⟨on, rfl, rfl⟩ := decodeOn_ok h
    exact ⟨rfl, rfl⟩
  -- SET_ENTRY_MODE has two bits
  case h_13 hk =>
    obtain rfl := eq_ofNat_of_toNat hk
    split at h
    · split at h
      next hinc hshift =>
        cases h
        rw [eq_bitByte_of_byteBit hinc, eq_bitByte_of_byteBit hshift]
        exact ⟨rfl, rfl⟩
      · cases h
    · cases h
  -- SET_FLAG has two bytes and a bit
  case h_14 hk =>
    obtain rfl := eq_ofNat_of_toNat hk
    split at h
    · split at h
      next hen =>
        cases h
        rw [eq_bitByte_of_byteBit hen]
        exact ⟨rfl, rfl⟩
      · cases h
    · cases h
  -- no other code is at most 0x0D
  case h_15 => grind

/-- A request's frame begins with its code. -/
theorem requestCode_of_encode {i : Instr} {code : Byte} {ops : List Byte} (h : encode i = .request (code :: ops)) :
    requestCode i = some code := by
  cases i with
  | init | sendCmd | sendData | writeString | goto | defChar | clear | home | setDisplay | setCursor | setBlink
  | setBacklight | setEntryMode | setFlag | reserved0E0F | reserved101F | reserved203F | reserved407F | reserved80FF =>
    cases h
    rfl
  | _ => cases h

/-- Settles O50: a code of the table reads exactly its operands, a reserved code none. -/
theorem decodedRequestsEncodeBack : Obligations.DecodedRequestsEncodeBack := by
  intro code ops i h
  by_cases hcode : code.toNat ≤ 0x0D
  · obtain ⟨hwf, henc⟩ := decodeRequest_encodesBack hcode h
    exact ⟨hwf, requestCode_of_encode henc, fun _ => henc, fun hgt => absurd hcode (Nat.not_le.2 hgt)⟩
  · have hgt : 0x0D < code.toNat := Nat.not_le.1 hcode
    obtain rfl : decodeReserved code = i := Except.ok.inj ((decodeRequest_reserved hgt ops).symm.trans h)
    obtain ⟨hwf, henc⟩ := decodeReserved_encodesBack hgt
    exact ⟨hwf, requestCode_of_encode henc, fun hle => absurd hle hcode, fun _ => henc⟩

/-! Decoding what was encoded -/

/-- Settles O48: a request by its code, a reserved code by its range, a word by its pattern; words with only Boolean and
two-bit fields are checked on all values of those. -/
theorem decodeInvertsEncode : Obligations.DecodeInvertsEncode := by
  intro i hwf
  cases i with
  | init | sendCmd | sendData | writeString | goto | defChar | clear | home => rfl
  | setDisplay | setCursor | setBlink | setBacklight | setEntryMode | setFlag =>
    simp [encode, decode, decodeRequest, decodeOn]
  | reserved0E0F code =>
    obtain ⟨hlo, hhi⟩ := wf_reserved0E0F_iff.1 hwf
    exact decode_reserved_eq (by omega) (if_pos hhi)
  | reserved101F code =>
    obtain ⟨hlo, hhi⟩ := wf_reserved101F_iff.1 hwf
    exact decode_reserved_eq (by omega) (by rw [decodeReserved, if_neg (by omega), if_pos hhi])
  | reserved203F code =>
    obtain ⟨hlo, hhi⟩ := wf_reserved203F_iff.1 hwf
    exact decode_reserved_eq (by omega) (by rw [decodeReserved, if_neg (by omega), if_neg (by omega), if_pos hhi])
  | reserved407F code =>
    obtain ⟨hlo, hhi⟩ := wf_reserved407F_iff.1 hwf
    exact decode_reserved_eq (by omega)
      (by rw [decodeReserved, if_neg (by omega), if_neg (by omega), if_neg (by omega), if_pos hhi])
  | reserved80FF code =>
    have hlo := wf_reserved80FF_iff.1 hwf
    exact decode_reserved_eq (by omega)
      (by rw [decodeReserved, if_neg (by omega), if_neg (by omega), if_neg (by omega), if_neg (by omega)])
  | hdClear | loneNibble => rfl
  | hdHome | hdEntryMode | hdDisplayControl | hdShift | hdFunctionSet => decide +revert
  | hdSetCgram | hdSetDdram | hdWriteData | hdReadBfAddr | hdReadData =>
    simp [encode, decode, decodeWord, BitVec.setWidth_or]

/-- Settles O51: the decoder evaluated on the seven frames. -/
theorem encodingExamples : Obligations.EncodingExamples :=
  ⟨rfl, rfl, rfl, rfl, rfl, rfl, rfl⟩

end Sys2Proof.Machine
end

section
/-! PROOF. What a step runs: a request presented (R71, R73), an output word in flight (R76, log 9), and a row placed by
`withFetchWord` (log 8). -/

namespace Sys2Proof.Machine

/-! A request presented -/

/-- Settles O52: presenting bytes is a move of the host, and what they decode to decides it. -/
theorem stepRunsTheRequestPresented : Obligations.StepRunsTheRequestPresented := by
  intro s f rest hl ha
  rw [step_act hl ha]
  exact ⟨fun i hi => by simp [hostAct, hi], fun e he => by simp [hostAct, he]⟩

theorem decodeTableWord_frame {n w : Nat} {i : Instr} (h : decodeTableWord n w = some i) :
    ∃ f, tableFrame n w = some f ∧ decode f = .ok i := by
  unfold decodeTableWord at h
  split at h
  · cases h
  next f hf =>
    split at h
    next hi => exact ⟨f, hf, Option.some.inj h ▸ hi⟩
    · cases h

/-- A row of 8 bits is a request's code (R72). -/
theorem tableFrame_eight {w : Nat} {f : Frame} (h : tableFrame 8 w = some f) : ∃ bytes, f = .request bytes := by
  have hrequest : (if w < 256 then some (Frame.request (BitVec.ofNat 8 w :: zeroOperands w)) else none) = some f := h
  split at hrequest
  · exact ⟨_, (Option.some.inj hrequest).symm⟩
  · cases hrequest

theorem withFetchWord_request {n w : Nat} {bytes : List Byte} (h : tableFrame n w = some (.request bytes)) (s : State) :
    s.withFetchWord n w = { s with acts := .call bytes :: s.acts } := by
  simp [State.withFetchWord, h, State.placeFrame]

/-- Settles O54: the row's frame is placed as the host's next move, which the step takes. -/
theorem placedRequestRuns : Obligations.PlacedRequestRuns := by
  intro s w i hl h
  obtain ⟨f, hf, hi⟩ := decodeTableWord_frame h
  obtain ⟨bytes, rfl⟩ := tableFrame_eight hf
  rw [withFetchWord_request hf]
  exact (stepRunsTheRequestPresented { s with acts := .call bytes :: s.acts } bytes s.acts hl rfl).1 i hi

/-! An output word in flight -/

/-- What an output word does is the sending of its own bits (R76, log 9). -/
theorem exec_of_encode_word {i : Instr} {w : Word10} (h : encode i = .word w) (s : State) : exec i s = sendWord w s := by
  cases i with
  | hdClear | hdSetCgram | hdSetDdram | hdWriteData | hdReadBfAddr | hdReadData =>
    cases h
    rfl
  | hdHome | hdEntryMode | hdDisplayControl | hdShift | hdFunctionSet =>
    cases h
    refine congrArg (sendWord · s) ?_
    clear s
    decide +revert
  | _ => cases h

theorem encode_of_decode_word {w : Word10} {i : Instr} (h : decode (.word w) = .ok i) : encode i = .word w := by
  have hne : w ≠ 0#10 := by
    rintro rfl
    cases h
  obtain ⟨j, -, hj, henc⟩ := everyWordIsOneRow.1 w hne
  exact Except.ok.inj (hj.symm.trans h) ▸ henc

/-- Settles O53: the transfer sends the word that is left first, which is the bits of the row it decodes to. -/
theorem stepRunsTheWordInFlight : Obligations.StepRunsTheWordInFlight := by
  intro s r rest hl hb ha
  have hstep : step s = tickTransfer { s with acts := rest } := (step_act hl ha).trans (if_pos hb)
  refine ⟨fun w i htodo hi => ?_, fun htodo => ?_⟩
  · rw [hstep, exec_of_encode_word (encode_of_decode_word hi)]
    simp [tickTransfer, htodo]
  · rw [hstep]
    simp [tickTransfer, htodo, exec, execLoneNibble]

end Sys2Proof.Machine
end

section
/-! PROOF. The invariants at reset (R39), and the addresses of a legal geometry (R180). -/

namespace Sys2Proof.Machine

/-! The invariants at reset -/

theorem phaseInv_resetWith (c : Cfg) : PhaseInv (State.resetWith c) where
  rises := List.pairwise_singleton ..
  top p hp := by
    rw [List.mem_singleton.1 hp]
    exact Nat.zero_le 9
  idle _ := rfl

theorem rwInv_resetWith (c : Cfg) : RwInv (State.resetWith c) where
  line := nofun
  trace := List.not_mem_nil
  todo _ hop := absurd hop List.not_mem_nil

theorem shadowInv_resetWith (c : Cfg) : ShadowInv (State.resetWith c) where
  slots i v hv := by
    have hnone : (State.resetWith c).shadow.get i = none := Shadow.get_unwritten i
    rw [hnone] at hv
    cases hv
  todo _ hop := absurd hop List.not_mem_nil

/-- Settles O42: nothing is in flight, driven, written or recorded after a reset. -/
theorem resetMeetsTheInvariants : Obligations.ResetMeetsTheInvariants := by
  intro c
  exact ⟨⟨rfl, fun _ => rfl⟩, ⟨rfl, nofun, fun _ => rfl⟩, phaseInv_resetWith c, rwInv_resetWith c, shadowInv_resetWith c,
    ⟨fun _ => ⟨rfl, rfl⟩, nofun⟩⟩

/-! Addresses -/

/-- Settles O55: rows 1 and 2 start 0x40 apart; only a block of at most two lines has more than 20 columns, so rows 3 and 4
start behind the last column of rows 1 and 2. -/
theorem addressesAreBoundedAndDisjoint : Obligations.AddressesAreBoundedAndDisjoint := by
  intro c row col row' col' hl hrow hrowLe hcol hcolLe hrow' hrowLe' hcol' hcolLe'
  obtain ⟨hlines, hcols⟩ := Cfg.legal_geometry hl
  refine ⟨rfl, address_le hl hrowLe hcolLe, fun h => ?_⟩
  unfold toAddress at h
  split at hcols
  · rw [if_pos (by omega), if_pos (by omega)] at h
    omega
  · split at h
    · split at h
      · omega
      · omega
    · split at h
      · omega
      · omega

end Sys2Proof.Machine
end
